-- ==== Sys2Proof/Word.lean ====
section
/-! DEFINITION. The words of the TSC block: 64-bit registers and the 128-bit FRAME register
(00_scope.md R5). Bit 0 is the least significant bit everywhere (R10). -/

namespace Sys2Proof

/-- One host-port register's contents (00_scope.md R5: every host-port register is 64 bits). -/
abbrev Word := BitVec 64

/-- The FRAME register's contents: a frame of at most 120 bits in 128 (00_scope.md R5, 10_state.md R46). -/
abbrev Frame := BitVec 128

/-- One byte of PCM memory (20_memory.md R73). -/
abbrev Byte := BitVec 8

end Sys2Proof
end

