-- ==== Sys2Proof/Syntax.lean ====
section
/-! DEFINITION. The commands of the TSC block: one constructor per row of the opcode table
(30_encoding.md R107, opcode_table.json), and the closed sets of names the commands speak of. -/

namespace Sys2Proof

/-- The closed set of four standards (30_encoding.md R102, 41_records_common.md R171). -/
inductive Std where
  | dcf77
  | wwvb
  | jjy
  | bpc
deriving DecidableEq, Repr

/-- The field selectors of REC_FIELD (30_encoding.md R104). -/
inductive Field where
  | minute
  | hour
  | day
  | month
  | year
  | weekday
  | dayOfYear
  | cest
  | cet
  | dcfA1
  | dcfA2
  | dcfR
  | dst
  | leapYear
  | leapSecond
  | dut1Sign
  | dut1
  | jjyLs
  | jjySt
  | callsign
  | pm
deriving DecidableEq, Repr

/-- A command. `msb` is the command word's MSB flag where the command has one (30_encoding.md R103);
`field` is REC_FIELD's FIELD byte as it stands in the word (R104), legal up to 0x14 (`Instr.wf`). -/
inductive Instr where
  | nop
  | bcdEnc
  | bcdDec
  | bcd5Enc
  | bcd5Dec
  | reverse
  | parity
  | bits
  | setbits (msb : Bool)
  | recEncodeDcf77
  | recEncodeWwvb
  | recEncodeJjy
  | recEncodeBpc
  | recLoadDcf77 (msb : Bool)
  | recLoadWwvb (msb : Bool)
  | recLoadJjy (msb : Bool)
  | recLoadBpc (msb : Bool)
  | recRaw (msb : Bool)
  | recField (field : BitVec 8)
  | recValid
  | recSym
  | schedule
  | envelope
  | sample
  | render
deriving DecidableEq, Repr

end Sys2Proof
end

