-- ==== Sys2Proof/WellFormed.lean ====
section
/-! DEFINITION. Which terms of `Instr` are commands the block has. The one operand with illegal values is
REC_FIELD's FIELD: 0x15 to 0xFF are illegal (30_encoding.md R104, R108). Every other operand is one bit wide
and legal at both values (R103: REC_LOAD.BPC with MSB = 1 is a legal word that ends with UNSUPPORTED). -/

namespace Sys2Proof

/-- The highest legal FIELD value (30_encoding.md R104). -/
def lastField : BitVec 8 := 0x14

/-- The command word of `i` is legal (30_encoding.md R108). -/
def Instr.wf : Instr → Bool
  | .nop => true
  | .bcdEnc => true
  | .bcdDec => true
  | .bcd5Enc => true
  | .bcd5Dec => true
  | .reverse => true
  | .parity => true
  | .bits => true
  | .setbits _ => true
  | .recEncodeDcf77 => true
  | .recEncodeWwvb => true
  | .recEncodeJjy => true
  | .recEncodeBpc => true
  | .recLoadDcf77 _ => true
  | .recLoadWwvb _ => true
  | .recLoadJjy _ => true
  | .recLoadBpc _ => true
  | .recRaw _ => true
  | .recField f => decide (f ≤ lastField)
  | .recValid => true
  | .recSym => true
  | .schedule => true
  | .envelope => true
  | .sample => true
  | .render => true

/-- A well-formed command. -/
abbrev WellFormed (i : Instr) : Prop := i.wf = true

end Sys2Proof
end

