-- ==== Sys2Proof/Decode.lean ====
section
/-! DEFINITION. Command words: the decoder, total on every 64-bit word and rejecting by name, and after it the
encoder (30_encoding.md R100 to R110). -/

namespace Sys2Proof

/-- Why a command word is illegal: one name per item of 30_encoding.md R108. -/
inductive DecodeReject where
  /-- OPC is not listed in R107. -/
  | unusedOpcode
  /-- A bit of 15:12 or 63:24 is 1 (R105). -/
  | reservedBits
  /-- STD is not 0 in a command other than REC_ENCODE and REC_LOAD. -/
  | stdNotAllowed
  /-- STD is 4 to 7 in REC_ENCODE or REC_LOAD. -/
  | stdUnused
  /-- MSB = 1 in a command other than SETBITS, REC_LOAD and REC_RAW. -/
  | msbNotAllowed
  /-- FIELD is not 0 in a command other than REC_FIELD. -/
  | fieldNotAllowed
  /-- FIELD is 0x15 to 0xFF in REC_FIELD. -/
  | fieldUnused
deriving DecidableEq, Repr

/-- The OPC field's legal values (30_encoding.md R107). -/
inductive Opcode where
  | nop | bcdEnc | bcdDec | bcd5Enc | bcd5Dec | reverse | parity | bits | setbits
  | recEncode | recLoad | recRaw | recField | recValid | recSym
  | schedule | envelope | sample | render
deriving DecidableEq, Repr

/-- The opcode map (30_encoding.md R107): OPC byte to opcode. -/
def opcodeOfByte (b : BitVec 8) : Option Opcode :=
  match b.toNat with
  | 0x00 => some .nop
  | 0x01 => some .bcdEnc
  | 0x02 => some .bcdDec
  | 0x03 => some .bcd5Enc
  | 0x04 => some .bcd5Dec
  | 0x05 => some .reverse
  | 0x06 => some .parity
  | 0x07 => some .bits
  | 0x08 => some .setbits
  | 0x10 => some .recEncode
  | 0x11 => some .recLoad
  | 0x12 => some .recRaw
  | 0x13 => some .recField
  | 0x14 => some .recValid
  | 0x15 => some .recSym
  | 0x20 => some .schedule
  | 0x21 => some .envelope
  | 0x22 => some .sample
  | 0x30 => some .render
  | _ => none

/-- STD selects the standard in REC_ENCODE and REC_LOAD only (30_encoding.md R102). -/
def opcodeTakesStd (o : Opcode) : Bool := o == .recEncode || o == .recLoad

/-- MSB selects the bit order in SETBITS, REC_LOAD and REC_RAW only (30_encoding.md R103). -/
def opcodeTakesMsb (o : Opcode) : Bool := o == .setbits || o == .recLoad || o == .recRaw

/-- FIELD selects the field in REC_FIELD only (30_encoding.md R104). -/
def opcodeTakesField (o : Opcode) : Bool := o == .recField

/-- The standard an STD value names; 4 to 7 name none (30_encoding.md R102). -/
def stdOfCode (c : BitVec 3) : Option Std :=
  match c.toNat with
  | 0 => some .dcf77
  | 1 => some .wwvb
  | 2 => some .jjy
  | 3 => some .bpc
  | _ => none

/-- The field a FIELD value names; 0x15 to 0xFF name none (30_encoding.md R104). -/
def fieldOfCode (c : BitVec 8) : Option Field :=
  match c.toNat with
  | 0x00 => some .minute
  | 0x01 => some .hour
  | 0x02 => some .day
  | 0x03 => some .month
  | 0x04 => some .year
  | 0x05 => some .weekday
  | 0x06 => some .dayOfYear
  | 0x07 => some .cest
  | 0x08 => some .cet
  | 0x09 => some .dcfA1
  | 0x0A => some .dcfA2
  | 0x0B => some .dcfR
  | 0x0C => some .dst
  | 0x0D => some .leapYear
  | 0x0E => some .leapSecond
  | 0x0F => some .dut1Sign
  | 0x10 => some .dut1
  | 0x11 => some .jjyLs
  | 0x12 => some .jjySt
  | 0x13 => some .callsign
  | 0x14 => some .pm
  | _ => none

/-- The command an opcode and its legal fields name (30_encoding.md R107). -/
def instrOf (o : Opcode) (std : Std) (msb : Bool) (field : BitVec 8) : Instr :=
  match o, std with
  | .nop, _ => .nop
  | .bcdEnc, _ => .bcdEnc
  | .bcdDec, _ => .bcdDec
  | .bcd5Enc, _ => .bcd5Enc
  | .bcd5Dec, _ => .bcd5Dec
  | .reverse, _ => .reverse
  | .parity, _ => .parity
  | .bits, _ => .bits
  | .setbits, _ => .setbits msb
  | .recEncode, .dcf77 => .recEncodeDcf77
  | .recEncode, .wwvb => .recEncodeWwvb
  | .recEncode, .jjy => .recEncodeJjy
  | .recEncode, .bpc => .recEncodeBpc
  | .recLoad, .dcf77 => .recLoadDcf77 msb
  | .recLoad, .wwvb => .recLoadWwvb msb
  | .recLoad, .jjy => .recLoadJjy msb
  | .recLoad, .bpc => .recLoadBpc msb
  | .recRaw, _ => .recRaw msb
  | .recField, _ => .recField field
  | .recValid, _ => .recValid
  | .recSym, _ => .recSym
  | .schedule, _ => .schedule
  | .envelope, _ => .envelope
  | .sample, _ => .sample
  | .render, _ => .render

/-- OPC, bits 7:0 (30_encoding.md R100). -/
def opcOf (w : Word) : BitVec 8 := w.extractLsb' 0 8
/-- STD, bits 10:8 (30_encoding.md R100). -/
def stdOf (w : Word) : BitVec 3 := w.extractLsb' 8 3
/-- MSB, bit 11 (30_encoding.md R100). -/
def msbOf (w : Word) : Bool := w.getLsbD 11
/-- FIELD, bits 23:16 (30_encoding.md R100). -/
def fieldOf (w : Word) : BitVec 8 := w.extractLsb' 16 8
/-- The reserved bits 15:12 and 63:24, which must be 0 in every command (30_encoding.md R105). -/
def reservedOf (w : Word) : Word := w &&& 0xFFFFFFFFFF00F000

/-- The decoder: a word is one row of R107 with legal field values, or it is illegal for one of R108's
reasons (30_encoding.md R109: nothing in between). -/
def decode (w : Word) : Except DecodeReject Instr :=
  match opcodeOfByte (opcOf w) with
  | none => .error .unusedOpcode
  | some o =>
    if reservedOf w ≠ 0 then .error .reservedBits
    else if !opcodeTakesMsb o && msbOf w then .error .msbNotAllowed
    else if !opcodeTakesField o && fieldOf w != 0 then .error .fieldNotAllowed
    else if opcodeTakesField o && decide (lastField < fieldOf w) then .error .fieldUnused
    else
      match stdOfCode (stdOf w) with
      | none => .error (if opcodeTakesStd o then .stdUnused else .stdNotAllowed)
      | some std =>
        if !opcodeTakesStd o && std != .dcf77 then .error .stdNotAllowed
        else .ok (instrOf o std (msbOf w) (fieldOf w))

/-- `CMD = OPC | (STD << 8) | (MSB << 11) | (FIELD << 16)` (30_encoding.md R100). -/
def commandWord (opc : BitVec 8) (std : BitVec 3) (msb : Bool) (field : BitVec 8) : Word :=
  opc.setWidth 64 ||| (std.setWidth 64 <<< 8) ||| ((BitVec.ofBool msb).setWidth 64 <<< 11)
    ||| (field.setWidth 64 <<< 16)

/-- The encoder: the word of each command, from the opcode map (30_encoding.md R107). -/
def encode : Instr → Word
  | .nop => commandWord 0x00 0 false 0
  | .bcdEnc => commandWord 0x01 0 false 0
  | .bcdDec => commandWord 0x02 0 false 0
  | .bcd5Enc => commandWord 0x03 0 false 0
  | .bcd5Dec => commandWord 0x04 0 false 0
  | .reverse => commandWord 0x05 0 false 0
  | .parity => commandWord 0x06 0 false 0
  | .bits => commandWord 0x07 0 false 0
  | .setbits msb => commandWord 0x08 0 msb 0
  | .recEncodeDcf77 => commandWord 0x10 0 false 0
  | .recEncodeWwvb => commandWord 0x10 1 false 0
  | .recEncodeJjy => commandWord 0x10 2 false 0
  | .recEncodeBpc => commandWord 0x10 3 false 0
  | .recLoadDcf77 msb => commandWord 0x11 0 msb 0
  | .recLoadWwvb msb => commandWord 0x11 1 msb 0
  | .recLoadJjy msb => commandWord 0x11 2 msb 0
  | .recLoadBpc msb => commandWord 0x11 3 msb 0
  | .recRaw msb => commandWord 0x12 0 msb 0
  | .recField field => commandWord 0x13 0 false field
  | .recValid => commandWord 0x14 0 false 0
  | .recSym => commandWord 0x15 0 false 0
  | .schedule => commandWord 0x20 0 false 0
  | .envelope => commandWord 0x21 0 false 0
  | .sample => commandWord 0x22 0 false 0
  | .render => commandWord 0x30 0 false 0

/-- The command the decoder reads from a table word of `nbits` bits (every bit above them 0);
none where the word is illegal. A command is one 64-bit CMD write (30_encoding.md R110), so there is no byte
order to lay out (20_memory.md R72). -/
def decodeTableWord (nbits w : Nat) : Option Instr :=
  (decode (BitVec.ofNat 64 (w % 2 ^ nbits))).toOption

end Sys2Proof
end

