-- ==== Sys2Proof/Machine/Float64.lean ====
section
/-! DEFINITION. IEEE-754 binary64 on bit patterns (00_scope.md R13): each operator works on the exact value and
rounds once, to nearest with ties to even. A pattern is unpacked to an exact value, the operator computes on integers,
and ONE function rounds and packs. What IEEE-754 says of the format and of non-finite operands is PRESUMED general
knowledge (notes/assumptions/14); no rule of the block applies an operator to a non-finite value. -/

namespace Sys2Proof.Machine

/-- What a binary64 pattern stands for: `fin neg m e` is (-1)^neg * m * 2^e exactly. -/
inductive F64Value where
  | nan
  | inf (neg : Bool)
  | fin (neg : Bool) (m : Nat) (e : Int)
deriving DecidableEq, Repr

/-- `dbl(x)` (00_scope.md R13): sign in bit 63, 11 exponent bits, 52 fraction bits. -/
def f64Unpack (x : Word) : F64Value :=
  let neg := x.getLsbD 63
  let ex : Nat := (x.toNat / 2 ^ 52) % 2 ^ 11
  let fr : Nat := x.toNat % 2 ^ 52
  if ex = 2047 then (if fr = 0 then .inf neg else .nan)
  else if ex = 0 then .fin neg fr (-1074)
  else .fin neg (2 ^ 52 + fr) ((ex : Int) - 1075)

/-- A pattern from its sign and its low 63 bits. -/
def f64Signed (neg : Bool) (mag : Nat) : Word :=
  BitVec.ofNat 64 (mag + if neg then 2 ^ 63 else 0)

/-- The pattern bits of infinity, less the sign. -/
def f64InfMag : Nat := 0x7FF0000000000000

/-- The NaN of an operator without a value (notes/assumptions/14). -/
def f64Nan : Word := 0x7FF8000000000000

/-- floor(num * 2^k / den) and whether the rest is less than, equal to or more than half. -/
def f64ScaledDiv (num den : Nat) (k : Int) : Nat × Ordering :=
  let n := num * 2 ^ k.toNat
  let d := den * 2 ^ (-k).toNat
  (n / d, compare (2 * (n % d)) d)

/-- The binary64 value nearest to (-1)^neg * num / den, ties to even (00_scope.md R13); `den` is not 0.
The quotient has 53 bits, or fewer where the result is subnormal, and the pattern's low 63 bits are
`(e + 1074) * 2^52 + q` whether or not the rounding carries. -/
def f64Round (neg : Bool) (num den : Nat) : Word :=
  if num = 0 then f64Signed neg 0
  else
    let guess : Int := (Nat.log2 num : Int) - Nat.log2 den
    let lg := if num * 2 ^ (-guess).toNat < den * 2 ^ guess.toNat then guess - 1 else guess
    let e := max (lg - 52) (-1074)
    let (q, rest) := f64ScaledDiv num den (-e)
    let q' := match rest with
      | .lt => q
      | .eq => q + q % 2
      | .gt => q + 1
    f64Signed neg (min f64InfMag ((e + 1074).toNat * 2 ^ 52 + q'))

/-- (-1)^neg * m * 2^e, rounded. -/
def f64RoundDyadic (neg : Bool) (m : Nat) (e : Int) : Word :=
  f64Round neg (m * 2 ^ e.toNat) (2 ^ (-e).toNat)

/-- `f64(v)`: the binary64 value nearest to the integer v (00_scope.md R12). -/
def f64OfNat (v : Nat) : Word := f64Round false v 1

/-- The exact integer (-1)^neg * m * 2^(e - base), for base at most e. -/
def f64SignedAt (base : Int) (neg : Bool) (m : Nat) (e : Int) : Int :=
  let v : Int := ((m * 2 ^ (e - base).toNat : Nat) : Int)
  if neg then -v else v

/-- a * b, rounded once. -/
def f64Mul (a b : Word) : Word :=
  match f64Unpack a, f64Unpack b with
  | .fin s m e, .fin s' m' e' => f64RoundDyadic (s != s') (m * m') (e + e')
  | .inf s, .inf s' => f64Signed (s != s') f64InfMag
  | .inf s, .fin s' m' _ => if m' = 0 then f64Nan else f64Signed (s != s') f64InfMag
  | .fin s m _, .inf s' => if m = 0 then f64Nan else f64Signed (s != s') f64InfMag
  | .nan, _ => f64Nan
  | _, .nan => f64Nan

/-- a / b, rounded once. -/
def f64Div (a b : Word) : Word :=
  match f64Unpack a, f64Unpack b with
  | .fin s m e, .fin s' m' e' =>
    if m' = 0 then (if m = 0 then f64Nan else f64Signed (s != s') f64InfMag)
    else f64Round (s != s') (m * 2 ^ (e - e').toNat) (m' * 2 ^ (e' - e).toNat)
  | .inf s, .fin s' _ _ => f64Signed (s != s') f64InfMag
  | .fin s _ _, .inf s' => f64Signed (s != s') 0
  | .inf _, .inf _ => f64Nan
  | .nan, _ => f64Nan
  | _, .nan => f64Nan

/-- a - b, rounded once; an exact zero is +0.0 unless it is (-0.0) - (+0.0). -/
def f64Sub (a b : Word) : Word :=
  match f64Unpack a, f64Unpack b with
  | .fin s m e, .fin s' m' e' =>
    let base := min e e'
    let d := f64SignedAt base s m e - f64SignedAt base s' m' e'
    if d = 0 then f64Signed (s && !s' && m == 0) 0
    else f64RoundDyadic (decide (d < 0)) d.natAbs base
  | .inf s, .inf s' => if s = s' then f64Nan else f64Signed s f64InfMag
  | .inf s, .fin _ _ _ => f64Signed s f64InfMag
  | .fin _ _ _, .inf s' => f64Signed (!s') f64InfMag
  | .nan, _ => f64Nan
  | _, .nan => f64Nan

/-- a <= b under IEEE comparison: false where either is a NaN, and -0.0 equals +0.0 (10_state.md R43,
47_synth.md R354). -/
def f64Le (a b : Word) : Bool :=
  match f64Unpack a, f64Unpack b with
  | .fin s m e, .fin s' m' e' =>
    let base := min e e'
    decide (f64SignedAt base s m e ≤ f64SignedAt base s' m' e')
  | .inf s, .inf s' => s || !s'
  | .inf s, .fin _ _ _ => s
  | .fin _ _ _, .inf s' => !s'
  | .nan, _ => false
  | _, .nan => false

/-- The value is finite (10_state.md R43, 47_synth.md R357). -/
def f64Finite (a : Word) : Bool :=
  match f64Unpack a with
  | .fin _ _ _ => true
  | .inf _ => false
  | .nan => false

/-- `round(y) = floor(y + 1/2)` in exact arithmetic, ties toward +infinity (47_synth.md R351). Every y the block
rounds is finite (R356); the 0 of the other two cases is reached by no rule (notes/assumptions/14). -/
def f64RoundToInt (y : Word) : Int :=
  match f64Unpack y with
  | .fin neg m e =>
    let v := f64SignedAt (min e 0) neg m e
    let one : Int := ((2 ^ (-e).toNat : Nat) : Int)
    (2 * v + one) / (2 * one)
  | .inf _ => 0
  | .nan => 0

/-- 0.0 -/
def f64Zero : Word := 0x0000000000000000
/-- 1.0 -/
def f64One : Word := 0x3FF0000000000000
/-- 2.0 -/
def f64Two : Word := 0x4000000000000000
/-- 32767.0, the waveform scale's positive full scale (00_scope.md R5). -/
def f64FullScale : Word := 0x40DFFFC000000000
/-- -32768.0, the square wave's negative level (00_scope.md R5). -/
def f64SquareLow : Word := 0xC0E0000000000000
/-- PI64, the binary64 value nearest to pi (00_scope.md R13). -/
def f64Pi : Word := 0x400921FB54442D18

end Sys2Proof.Machine
end

