-- ==== Sys2Proof/Config.lean ====
section
/-! DEFINITION. The implementation parameters the spec leaves open (00_scope.md R6: "A model takes each as an
argument"). `Params` is the argument: plain data that State carries and no step changes, so that a statement about
every state is a statement about every value of every parameter (notes/assumptions/7). -/

namespace Sys2Proof

/-- MORSE_INDEX_RULE (00_scope.md R6, 46_envelope.md R327). -/
inductive MorseRule where
  | nearest
  | containing
deriving DecidableEq, Repr

/-- SAMPLE_INDEX_ORIGIN (00_scope.md R6, 48_render.md R382). -/
inductive IndexOrigin where
  | minute
  | buffer
deriving DecidableEq, Repr

/-- JJY_MS: the full-amplitude prefix lengths in ms for bit 0, bit 1 and marker (00_scope.md R6, 46_envelope.md R324). -/
structure JjyMs where
  zero   : Nat
  one    : Nat
  marker : Nat
deriving DecidableEq, Repr

/-- BPC_SYM_MS[0..3]: the low-amplitude prefix lengths in ms (00_scope.md R6, 46_envelope.md R325). -/
structure BpcSymMs where
  sym0 : Nat
  sym1 : Nat
  sym2 : Nat
  sym3 : Nat
deriving DecidableEq, Repr

/-- The parameters of 00_scope.md R6.

`sinChoice` and `asinChoice` say WHICH conforming SIN64 and ASIN64 the block has (47_synth.md R352): each entry
(x, y) gives the binary64 result y at the binary64 argument x, and counts only where R352 allows y there
(Machine/Trig.lean); every other argument has the correctly rounded result. There are finitely many binary64
arguments, so every conforming function is some list, but for its value at -0.0 (notes/assumptions/11 and 23). -/
structure Params where
  /-- PCM_BYTES: size in bytes of the PCM output memory. -/
  pcmBytes    : Nat
  /-- ALLOWED_FREQ(WWVB), Hz. -/
  allowedWwvb : List Nat
  /-- ALLOWED_FREQ(JJY), Hz. -/
  allowedJjy  : List Nat
  /-- ALLOWED_FREQ(BPC), Hz. -/
  allowedBpc  : List Nat
  jjyMs       : JjyMs
  bpcSymMs    : BpcSymMs
  /-- BPC_MARKER_MS: the prefix length at seconds 0, 20 and 40. -/
  bpcMarkerMs : Nat
  /-- MORSE_GATE[0..76]: bit i is the on (1.0) or off (0.0) value of gate i. -/
  morseGate   : BitVec 77
  morseRule   : MorseRule
  indexOrigin : IndexOrigin
  sinChoice   : List (Word × Word)
  asinChoice  : List (Word × Word)
deriving DecidableEq, Repr

/-- What R6 and the rules it names require of the parameters: each JJY_MS value (46_envelope.md R324) and each BPC
duration (R325) is in 0..1000. -/
def Params.wf (p : Params) : Bool :=
  decide (p.jjyMs.zero ≤ 1000) && decide (p.jjyMs.one ≤ 1000) && decide (p.jjyMs.marker ≤ 1000)
    && decide (p.bpcSymMs.sym0 ≤ 1000) && decide (p.bpcSymMs.sym1 ≤ 1000)
    && decide (p.bpcSymMs.sym2 ≤ 1000) && decide (p.bpcSymMs.sym3 ≤ 1000)
    && decide (p.bpcMarkerMs ≤ 1000)

/-- FREE VALUE (DESIGN CHOICE, safe; notes/assumptions/10): the 77 Morse gate values, which the spec leaves OPEN with
no default (46_envelope.md R327, 93_implementation_defined.md U12). No body: nothing can be proved of its value. -/
opaque Config.morseGate : BitVec 77

/-- FREE VALUE (DESIGN CHOICE, safe; notes/assumptions/24): the contents of the unwritten register at `offset` after the
given number of resets, "unspecified" (10_state.md R52) as is what a host read of it returns (R33). No body: nothing can be
proved of its value. -/
opaque Config.unspecifiedContents (resets offset : Nat) : Word

/-- The parameters of the block that State.reset stands for: R6's defaults where it gives one. Where it gives none:
PCM_BYTES is the spec's own programs' 124000 (DESIGN CHOICE, unsafe; notes/assumptions/8); no carrier list is supplied
for WWVB, JJY and BPC (DESIGN CHOICE, unsafe; notes/assumptions/9); the Morse gate is free
(notes/assumptions/10); SIN64 and ASIN64 are correctly rounded (DESIGN CHOICE, unsafe; notes/assumptions/11). -/
def Config.resetParams : Params where
  pcmBytes    := 124000
  allowedWwvb := []
  allowedJjy  := []
  allowedBpc  := []
  jjyMs       := ⟨200, 500, 800⟩
  bpcSymMs    := ⟨100, 200, 300, 400⟩
  bpcMarkerMs := 0
  morseGate   := Config.morseGate
  morseRule   := .nearest
  indexOrigin := .minute
  sinChoice   := []
  asinChoice  := []

end Sys2Proof
end

