-- ==== Sys2Proof/Machine/State.lean ====
section
/-! DEFINITION. The machine's state as plain data: every register of 10_state.md with its written flag, FRAME,
FRAME_TAG, PCM_LEN, the PCM memory, the implementation parameters, and what reaches the block next. -/

namespace Sys2Proof.Machine

/-- A host-port register with its hidden written flag (10_state.md R33). -/
structure Reg where
  value   : Word
  written : Bool
deriving DecidableEq, Repr

/-- An unwritten register. R52 leaves its contents unspecified; the 0 is a DESIGN CHOICE (unsafe;
notes/assumptions/3) that no rule of the block lets anyone see: a command that reads it ends with UNINIT and a host read
returns a free value. -/
def Reg.unwritten : Reg := ⟨0, false⟩

/-- The error codes (60_exceptions.md R410), ILLEGAL = 1 to CONFIG = 7. Code 0 (NONE) is the absence of one; codes
8 to 15 are never produced and have no name here. -/
inductive ErrCode where
  | illegal
  | uninit
  | range
  | format
  | unsupported
  | noframe
  | config
deriving DecidableEq, Repr

/-- The fields of STATUS (10_state.md R35). Reserved bits read 0. -/
structure Status where
  busy  : Bool
  err   : Bool
  lost  : Bool
  /-- ECODE; `none` is code 0, NONE. -/
  ecode : Option ErrCode
deriving DecidableEq, Repr

/-- The fields of FRAME_TAG (10_state.md R47). Reserved bits read 0. -/
structure FrameTag where
  std     : Std
  present : Bool
deriving DecidableEq, Repr

/-- The registers of the host port (10_state.md R30). -/
inductive RegName where
  | id | cmd | status
  | opa | opb | opc | opd | tin0 | tin1
  | rate | freq | shape | depth | startSec
  | res0 | res1 | frameLo | frameHi | frameTag | pcmLen
deriving DecidableEq, Repr

/-- One access of the host (20_memory.md R71, R75). Offsets, widths and addresses are whatever the host puts on its
bus: a bus error is refused when the access is made.

`readPcm`'s last argument is the free choice of 70_reset_and_hazards.md R446 (93_implementation_defined.md U3): where
the read falls in a running RENDER, bit i says whether byte i of the read sees its value after the RENDER (1) or
before it (0). It is read in no other case (notes/assumptions/6). -/
inductive HostOp where
  | writeReg (offset bits : Nat) (value : Word)
  | readReg (offset bits : Nat)
  | readPcm (addr n : Nat) (seesNew : BitVec 8)
deriving DecidableEq, Repr

/-- What can happen next to the block (notes/assumptions/1): a host access, the end of the running command
(70_reset_and_hazards.md R450: after any finite time), or reset (R440: at any time). -/
inductive Event where
  | host (op : HostOp)
  | commandEnd
  | reset
deriving DecidableEq, Repr

/-- Why the machine stops with a fault. -/
inductive Fault where
  /-- A host PCM read that covers byte `addr`, which no RENDER has written (20_memory.md R76,
  93_implementation_defined.md U2: fault). Raised by `hostReadPcm`. Safe: the hardware returns an unspecified value. -/
  | unwrittenPcm (addr : Nat)
deriving DecidableEq, Repr

/-- Why the machine has no transition. -/
inductive Refusal where
  /-- The instruction has no meaning in this model. Raised by `exec`'s arms only; no arm raises it now. Safe. -/
  | notModelled (mnemonic : String)
  /-- A register-port access of `bits` bits at `offset` that is a bus error (20_memory.md R71, 60_exceptions.md R418,
  93_implementation_defined.md U4: refuse). Raised by `hostWriteReg` and `hostReadReg`. Safe: the access changes no
  state of the block. -/
  | busErrorRegister (offset bits : Nat)
  /-- A PCM read of `n` bytes at `addr` that is a bus error (20_memory.md R75, 60_exceptions.md R418,
  93_implementation_defined.md U4: refuse). Raised by `hostReadPcm`. Safe: the access changes no state of the block. -/
  | busErrorPcm (addr n : Nat)
deriving DecidableEq, Repr

/-- The state of the TSC block, of the parameters it was built with, and of what reaches it next. -/
structure State where
  /-- CMD (10_state.md R34). While BUSY it is the running command's word. -/
  cmd      : Reg
  /-- STATUS (10_state.md R35). BUSY says that a command is in progress (R51). -/
  status   : Status
  opa      : Reg
  opb      : Reg
  opc      : Reg
  opd      : Reg
  tin0     : Reg
  tin1     : Reg
  rate     : Reg
  freq     : Reg
  shape    : Reg
  depth    : Reg
  startSec : Reg
  res0     : Reg
  res1     : Reg
  /-- FRAME (10_state.md R46); FRAME_LO and FRAME_HI are its halves. -/
  frame    : Frame
  frameLoWritten : Bool
  frameHiWritten : Bool
  frameTag : FrameTag
  pcmLen   : Word
  /-- The written bytes of the PCM memory, addresses strictly rising; an unlisted byte is unwritten (20_memory.md
  R73, R76). -/
  pcm      : List Host.Cell
  /-- The implementation parameters (00_scope.md R6). No step changes them. -/
  params   : Params
  /-- MODEL's own: what reaches the block next, oldest first (notes/assumptions/1). -/
  events   : List Event
  /-- MODEL's own: the value the last completed host read returned (notes/assumptions/12). -/
  readData : Option Word
  /-- MODEL's own: how many resets there have been. Each leaves its own free contents in the unwritten registers
  (`Config.unspecifiedContents`; notes/assumptions/24). -/
  resets   : Nat
deriving DecidableEq, Repr

/-- The machine right after reset (10_state.md R52, 70_reset_and_hazards.md R440). -/
def State.reset : State where
  cmd      := ⟨0, false⟩
  status   := ⟨false, false, false, none⟩
  opa      := Reg.unwritten
  opb      := Reg.unwritten
  opc      := Reg.unwritten
  opd      := Reg.unwritten
  tin0     := Reg.unwritten
  tin1     := Reg.unwritten
  rate     := Reg.unwritten
  freq     := Reg.unwritten
  shape    := Reg.unwritten
  depth    := Reg.unwritten
  startSec := Reg.unwritten
  res0     := Reg.unwritten
  res1     := Reg.unwritten
  frame    := 0
  frameLoWritten := false
  frameHiWritten := false
  frameTag := ⟨.dcf77, false⟩
  pcmLen   := 0
  pcm      := []
  params   := Config.resetParams
  events   := []
  readData := none
  resets   := 0

end Sys2Proof.Machine
end

