-- ==== Sys2Proof/Machine/Flags.lean ====
section
/-! DEFINITION. STATUS and FRAME_TAG: the words a host reads and every way their fields change
(10_state.md R35, R36, R47, R50). -/

namespace Sys2Proof.Machine

/-- A one-bit field at `pos` of a register word. -/
def bitAt (b : Bool) (pos : Nat) : Word := (BitVec.ofBool b).setWidth 64 <<< pos

/-- ECODE's four bits (60_exceptions.md R410). -/
def ecodeBits : Option ErrCode → BitVec 4
  | none => 0
  | some .illegal => 1
  | some .uninit => 2
  | some .range => 3
  | some .format => 4
  | some .unsupported => 5
  | some .noframe => 6
  | some .config => 7

/-- What a read of STATUS returns (10_state.md R35): BUSY in bit 0, ERR in 1, LOST in 2, ECODE in 7:4; bits 3 and 63:8
read 0. -/
def statusWord (st : Status) : Word :=
  bitAt st.busy 0 ||| bitAt st.err 1 ||| bitAt st.lost 2 ||| ((ecodeBits st.ecode).setWidth 64 <<< 4)

/-- STD's three bits (30_encoding.md R102, 10_state.md R47). -/
def stdBits : Std → BitVec 3
  | .dcf77 => 0
  | .wwvb => 1
  | .jjy => 2
  | .bpc => 3

/-- What a read of FRAME_TAG returns (10_state.md R47): STD in 2:0, PRESENT in bit 7; bits 6:3 and 63:8 read 0. -/
def frameTagWord (t : FrameTag) : Word :=
  (stdBits t.std).setWidth 64 ||| bitAt t.present 7

/-- An accepted CMD write sets BUSY (10_state.md R34). -/
def statusAccept (st : Status) : Status := { st with busy := true }

/-- A successful end: ERR, ECODE and BUSY become 0, LOST is not changed (60_exceptions.md R411). -/
def statusEndOk (st : Status) : Status := { st with busy := false, err := false, ecode := none }

/-- An error end: ERR becomes 1, ECODE the code, BUSY 0; LOST is not changed (60_exceptions.md R412). -/
def statusEndError (e : ErrCode) (st : Status) : Status :=
  { st with busy := false, err := true, ecode := some e }

/-- A host write dropped because BUSY = 1 sets LOST and changes nothing else (60_exceptions.md R417). -/
def statusDropped (st : Status) : Status := { st with lost := true }

/-- A host write of `v` to STATUS: bit 2 = 1 clears LOST, every other bit is ignored (10_state.md R36). -/
def statusWritten (v : Word) (st : Status) : Status :=
  { st with lost := st.lost && !v.getLsbD 2 }

end Sys2Proof.Machine
end

