-- ==== Sys2Proof/Machine/Ops.lean ====
section
/-! DEFINITION. The named operations over registers and memory: the PCM memory (20_memory.md R73 to R77), the writes a
command makes (10_state.md R45 to R48), and how a command ends. The error end is this machine's "taking an exception":
one shared operation (60_exceptions.md R412, R413, R415). There is no return from it (R416: no return command exists,
and ERR and ECODE stay until the next command ends). -/

namespace Sys2Proof.Machine

/-- The canonical form of a PCM memory: addresses strictly rising. An unlisted byte has no value (20_memory.md R76), so
every listed byte is a written one. -/
def Memory.wf : List Host.Cell → Bool
  | [] => true
  | [_] => true
  | c :: d :: rest => decide (c.1 < d.1) && Memory.wf (d :: rest)

/-- Every listed address is one of 0..n-1 (20_memory.md R70). -/
def Memory.within (n : Nat) (m : List Host.Cell) : Bool := m.all (fun c => decide (c.1 < n))

/-- PCM[a]; none where no RENDER has written it (20_memory.md R76). -/
def pcmByte : List Host.Cell → Nat → Option Byte
  | [], _ => none
  | (k, b) :: rest, a => if k = a then some b else pcmByte rest a

/-- PCM[a] <- b. -/
def pcmPut : List Host.Cell → Nat → Byte → List Host.Cell
  | [], a, b => [(a, b)]
  | (k, c) :: rest, a, b =>
    if a < k then (a, b) :: (k, c) :: rest
    else if a = k then (a, b) :: rest
    else (k, c) :: pcmPut rest a b

/-- The two cells of a 16-bit sample at byte `off`, low byte first (20_memory.md R74). -/
def sampleCells (off : Nat) (v : BitVec 16) : List Host.Cell :=
  [(off, v.extractLsb' 0 8), (off + 1, v.extractLsb' 8 8)]

/-- `PcmWrite(off, 2, v)` (20_memory.md R74). -/
def pcmWrite16 (m : List Host.Cell) (off : Nat) (v : BitVec 16) : List Host.Cell :=
  (sampleCells off v).foldl (fun acc c => pcmPut acc c.1 c.2) m

/-- `MemRead(addr, n)` over a byte reader: little-endian (20_memory.md R75); where a byte has no value, its address. -/
def memRead (rd : Nat → Option Byte) (addr : Nat) : Nat → Except Nat Nat
  | 0 => .ok 0
  | n + 1 =>
    match rd addr with
    | none => .error addr
    | some b =>
      match memRead rd (addr + 1) n with
      | .error a => .error a
      | .ok rest => .ok (b.toNat + 256 * rest)

/-- A host write of `v` to an RW register stores all 64 bits and sets its written flag (10_state.md R32, R33). -/
def Reg.store (v : Word) : Reg := ⟨v, true⟩

/-- RES0 and RES1 are written, both (10_state.md R45). -/
def State.setResults (s : State) (r0 r1 : Word) : State :=
  { s with res0 := Reg.store r0, res1 := Reg.store r1 }

/-- FRAME and FRAME_TAG are replaced whole (41_records_common.md R186). -/
def State.setFrame (s : State) (f : Frame) (std : Std) : State :=
  { s with frame := f, frameLoWritten := true, frameHiWritten := true, frameTag := ⟨std, true⟩ }

/-- The PCM memory and PCM_LEN, as a successful RENDER writes them (48_render.md R380). -/
def State.setPcm (s : State) (m : List Host.Cell) (len : Word) : State :=
  { s with pcm := m, pcmLen := len }

/-- FRAME[63:0] (10_state.md R46). -/
def frameLo (f : Frame) : Word := f.extractLsb' 0 64
/-- FRAME[127:64] (10_state.md R46). -/
def frameHi (f : Frame) : Word := f.extractLsb' 64 64

/-- A successful end (60_exceptions.md R411). -/
def State.endOk (s : State) : State := { s with status := statusEndOk s.status }

/-- Taking an error: the command ends at once with `e`, and nothing but STATUS changes (60_exceptions.md R412). -/
def State.endError (s : State) (e : ErrCode) : State := { s with status := statusEndError e s.status }

/-- A command's end, from what its rule gives: the state with its writes made, or the first check that failed. On an
error the writes are not made, so no command leaves a partial update (60_exceptions.md R411, R412). -/
def commandEnd (s : State) (r : Except ErrCode State) : Host.Outcome State Fault Refusal :=
  match r with
  | .ok t => .next t.endOk
  | .error e => .next (s.endError e)

end Sys2Proof.Machine
end

