-- ==== Sys2Proof/Machine/Operands.lean ====
section
/-! DEFINITION. The operand forms: a command's checks, its reads of operand and configuration registers, and the fields
of TIN0 and TIN1 (30_encoding.md R106, 10_state.md R33, R37 to R44). -/

namespace Sys2Proof.Machine

/-- `require(cond, E)` (00_scope.md R14): ends the command with E if cond is false. -/
def require (c : Bool) (e : ErrCode) : Except ErrCode Unit :=
  if c then .ok () else .error e

/-- A command's read of an RW register: its 64 bits, or UNINIT where the written flag is clear (10_state.md R33). -/
def operandBits (r : Reg) : Except ErrCode Word :=
  if r.written then .ok r.value else .error .uninit

/-- A command's read of an RW register as the unsigned value of all 64 bits (30_encoding.md R106). -/
def operand (r : Reg) : Except ErrCode Nat :=
  if r.written then .ok r.value.toNat else .error .uninit

/-- A number as a register's contents. -/
def toWord (n : Nat) : Word := BitVec.ofNat 64 n

/-- `require(FRAME_TAG.PRESENT == 1, NOFRAME)` (10_state.md R47). -/
def requireFrame (s : State) : Except ErrCode Unit := require s.frameTag.present .noframe

/-- 1 <= RATE <= 2^32 - 1 (10_state.md R40). -/
def rateLegal (r : Nat) : Bool := decide (1 ≤ r) && decide (r ≤ 2 ^ 32 - 1)

/-- FREQ <= 2^32 - 1 (10_state.md R41). -/
def freqLegal (f : Nat) : Bool := decide (f ≤ 2 ^ 32 - 1)

/-- SHAPE <= 2 (10_state.md R42). -/
def shapeLegal (sh : Nat) : Bool := decide (sh ≤ 2)

/-- A binary64 pattern is finite with 0.0 <= d <= 1.0 under IEEE comparison: a legal DEPTH (10_state.md R43) and a legal
amplitude (47_synth.md R357). -/
def inUnitInterval (d : Word) : Bool := f64Finite d && f64Le f64Zero d && f64Le d f64One

/-- START_SEC <= 59 (10_state.md R44). -/
def startSecLegal (s : Nat) : Bool := decide (s ≤ 59)

/-- The carrier list of DCF77 (00_scope.md R5, 10_state.md R41). -/
def allowedDcf77 : List Nat := [13700, 15500, 17125]

/-- `ALLOWED_FREQ(std)` (10_state.md R41). -/
def allowedFreq (p : Params) : Std → List Nat
  | .dcf77 => allowedDcf77
  | .wwvb => p.allowedWwvb
  | .jjy => p.allowedJjy
  | .bpc => p.allowedBpc

/-- `v[lo + w - 1 : lo]` of a register, as a number (00_scope.md R10). -/
def fieldAt (v : Word) (lo w : Nat) : Nat := (v.toNat / 2 ^ lo) % 2 ^ w

/-- TIN0.YEAR (10_state.md R38). -/
def tinYear (t : Word) : Nat := fieldAt t 0 16
/-- TIN0.MONTH (10_state.md R38). -/
def tinMonth (t : Word) : Nat := fieldAt t 16 8
/-- TIN0.DAY (10_state.md R38). -/
def tinDay (t : Word) : Nat := fieldAt t 24 8
/-- TIN0.HOUR (10_state.md R38). -/
def tinHour (t : Word) : Nat := fieldAt t 32 8
/-- TIN0.MINUTE (10_state.md R38). -/
def tinMinute (t : Word) : Nat := fieldAt t 40 8
/-- TIN0's reserved bits 63:48 (10_state.md R38). -/
def tinReserved (t : Word) : Nat := fieldAt t 48 16

/-- The bits of TIN1 marked reserved: 7:5, 11:9, 23:17, 31:26, 63:38 (10_state.md R39). -/
def tin1ReservedMask : Word := 0xFFFFFFC0FCFE0EE0

/-- TIN1.DCF_R (10_state.md R39). -/
def dcfR (t : Word) : Bool := t.getLsbD 0
/-- TIN1.DCF_A1 (10_state.md R39). -/
def dcfA1 (t : Word) : Bool := t.getLsbD 1
/-- TIN1.DCF_Z1 (10_state.md R39). -/
def dcfZ1 (t : Word) : Bool := t.getLsbD 2
/-- TIN1.DCF_Z2 (10_state.md R39). -/
def dcfZ2 (t : Word) : Bool := t.getLsbD 3
/-- TIN1.DCF_A2 (10_state.md R39). -/
def dcfA2 (t : Word) : Bool := t.getLsbD 4
/-- TIN1.WWVB_DUT1_NEG (10_state.md R39). -/
def wwvbDut1Neg (t : Word) : Bool := t.getLsbD 8
/-- TIN1.WWVB_DUT1 (10_state.md R39). -/
def wwvbDut1 (t : Word) : Nat := fieldAt t 12 4
/-- TIN1.WWVB_LS (10_state.md R39). -/
def wwvbLs (t : Word) : Bool := t.getLsbD 16
/-- TIN1.JJY_LS1 (10_state.md R39). -/
def jjyLs1 (t : Word) : Bool := t.getLsbD 24
/-- TIN1.JJY_LS2 (10_state.md R39). -/
def jjyLs2 (t : Word) : Bool := t.getLsbD 25
/-- TIN1.JJY_ST (10_state.md R39). -/
def jjySt (t : Word) : Nat := fieldAt t 32 6

end Sys2Proof.Machine
end

