-- ==== Sys2Proof/Machine/BitCodec.lean ====
section
/-! DEFINITION. The bit-codec functions and commands (40_bitcodec.md), and the frame helpers the record rules use
(00_scope.md R15, 40_bitcodec.md R146). Arithmetic is on unbounded naturals (00_scope.md R12). -/

namespace Sys2Proof.Machine

/-- `lowmask(w)` (00_scope.md R15). -/
def lowmask (w : Nat) : Nat := 2 ^ w - 1

/-- `bcd(v)`: hundreds in 11:8, tens in 7:4, units in 3:0 (40_bitcodec.md R131). -/
def bcd (v : Nat) : Nat := (v / 100) <<< 8 ||| ((v / 10) % 10) <<< 4 ||| v % 10

/-- BCD_ENC's function with its check (40_bitcodec.md R131). -/
def bcdEncode (v : Nat) : Except ErrCode Nat := do
  require (v ≤ 255) .range
  return bcd v

/-- A digit of a packed form: at most 9, else FORMAT (40_bitcodec.md R132, R135). -/
def digit (d : Nat) : Except ErrCode Nat := do
  require (d ≤ 9) .format
  return d

/-- `unbcd(x)`: BCD_DEC's function with its checks in their order (40_bitcodec.md R132). -/
def unbcd (x : Nat) : Except ErrCode Nat := do
  require (x < 2 ^ 12) .range
  let d0 ← digit (x % 16)
  let d1 ← digit (x / 2 ^ 4 % 16)
  let d2 ← digit (x / 2 ^ 8 % 16)
  let v := d0 + 10 * d1 + 100 * d2
  require (v ≤ 255) .range
  return v

/-- `bcd5(v)`: each digit in the low 4 bits of its own 5-bit group (40_bitcodec.md R133, R134). -/
def bcd5 (v : Nat) : Nat := v % 10 ||| ((v / 10) % 10) <<< 5 ||| (v / 100) <<< 10

/-- BCD5_ENC's function with its check (40_bitcodec.md R133). -/
def bcd5Encode (v : Nat) : Except ErrCode Nat := do
  require (v ≤ 999) .range
  return bcd5 v

/-- A 5-bit group: its pad bit is 0 and its digit at most 9, else FORMAT (40_bitcodec.md R135). -/
def digit5 (g : Nat) : Except ErrCode Nat := do
  require (g / 2 ^ 4 % 2 == 0) .format
  digit (g % 16)

/-- `unbcd5(x)`: BCD5_DEC's function with its checks in their order (40_bitcodec.md R135). -/
def unbcd5 (x : Nat) : Except ErrCode Nat := do
  require (x < 2 ^ 15) .range
  let d0 ← digit5 (x % 2 ^ 5)
  let d1 ← digit5 (x / 2 ^ 5 % 2 ^ 5)
  let d2 ← digit5 (x / 2 ^ 10 % 2 ^ 5)
  return d0 + 10 * d1 + 100 * d2

/-- `reverse(x, n)`: the n lowest bits of x, reversed; bits n and above are ignored (40_bitcodec.md R136). -/
def reverseLow (x : Nat) : Nat → Nat
  | 0 => 0
  | n + 1 => x % 2 * 2 ^ n + reverseLow (x / 2) n

/-- The XOR of the n lowest bits of x. -/
def xorLow (x : Nat) : Nat → Bool
  | 0 => false
  | n + 1 => (x % 2 == 1) ^^ xorLow (x / 2) n

/-- `parity(x, lo, hi)`: the XOR of bits lo to hi-1 of x, the even-parity bit of the range (40_bitcodec.md R138). -/
def parity (x lo hi : Nat) : Bool := xorLow (x / 2 ^ lo) (hi - lo)

/-- `legalMask(m)`: a non-empty run of ones from bit 0 (40_bitcodec.md R140). -/
def legalMask (m : Nat) : Bool := m != 0 && m &&& (m + 1) == 0

/-- `width(m)`: the least w with m < 2^w (00_scope.md R15). -/
def width (m : Nat) : Nat := if m = 0 then 0 else Nat.log2 m + 1

/-- `bitsF(data, shift, mask)` (40_bitcodec.md R141). -/
def bitsF (data shift mask : Nat) : Nat :=
  let v := (data >>> shift) &&& mask
  if 1 < width mask then reverseLow v (width mask) else v

/-- `setBitsF(data, value, shift, mask, msb0)` (40_bitcodec.md R143). -/
def setBitsF (data value shift mask : Nat) (msb0 : Bool) : Nat :=
  let v := if msb0 && decide (1 < width mask) then reverseLow value (width mask) else value
  (data &&& (lowmask 64 ^^^ mask <<< shift)) ||| v <<< shift

/-- `putLSB(F, p, w, v)`: F with F[p+q] = v[q] for q in 0..w-1 (00_scope.md R15). -/
def putLSB (f : Frame) (p w v : Nat) : Frame :=
  (f &&& ~~~(BitVec.ofNat 128 (lowmask w) <<< p)) ||| (BitVec.ofNat 128 (v % 2 ^ w) <<< p)

/-- `putMSB(F, p, w, v) = putLSB(F, p, w, reverse(v, w))` (00_scope.md R15). -/
def putMSB (f : Frame) (p w v : Nat) : Frame := putLSB f p w (reverseLow v w)

/-- F with F[p] = b. -/
def putBit (f : Frame) (p : Nat) (b : Bool) : Frame := putLSB f p 1 b.toNat

/-- `getLSB(F, p, w) = F[p+w-1:p]` (00_scope.md R15). -/
def getLSB (f : Frame) (p w : Nat) : Nat := f.toNat / 2 ^ p % 2 ^ w

/-- `getMSB(F, p, w) = reverse(getLSB(F, p, w), w)` (00_scope.md R15). -/
def getMSB (f : Frame) (p w : Nat) : Nat := reverseLow (getLSB f p w) w

/-- `parity(F, lo, hi)` of a frame (40_bitcodec.md R138: record rules apply it to the full FRAME). -/
def frameParity (f : Frame) (lo hi : Nat) : Bool := parity f.toNat lo hi

/-- F with the even parity of its bits lo to hi-1 in bit p. -/
def putParity (f : Frame) (p lo hi : Nat) : Frame := putBit f p (frameParity f lo hi)

/-- NOP (40_bitcodec.md R130): no register is written. -/
def execNop (s : State) : Host.Outcome State Fault Refusal := commandEnd s (.ok s)

/-- BCD_ENC (40_bitcodec.md R131). -/
def execBcdEnc (s : State) : Host.Outcome State Fault Refusal := commandEnd s do
  let v ← operand s.opa
  let r ← bcdEncode v
  return s.setResults (toWord r) 0

/-- BCD_DEC (40_bitcodec.md R132). -/
def execBcdDec (s : State) : Host.Outcome State Fault Refusal := commandEnd s do
  let x ← operand s.opa
  let r ← unbcd x
  return s.setResults (toWord r) 0

/-- BCD5_ENC (40_bitcodec.md R133). -/
def execBcd5Enc (s : State) : Host.Outcome State Fault Refusal := commandEnd s do
  let v ← operand s.opa
  let r ← bcd5Encode v
  return s.setResults (toWord r) 0

/-- BCD5_DEC (40_bitcodec.md R135). -/
def execBcd5Dec (s : State) : Host.Outcome State Fault Refusal := commandEnd s do
  let x ← operand s.opa
  let r ← unbcd5 x
  return s.setResults (toWord r) 0

/-- REVERSE (40_bitcodec.md R137). -/
def execReverse (s : State) : Host.Outcome State Fault Refusal := commandEnd s do
  let x ← operand s.opa
  let n ← operand s.opb
  require (n ≤ 64) .range
  return s.setResults (toWord (reverseLow x n)) 0

/-- PARITY (40_bitcodec.md R139). -/
def execParity (s : State) : Host.Outcome State Fault Refusal := commandEnd s do
  let data ← operand s.opa
  let lo ← operand s.opb
  let hi ← operand s.opc
  require (lo ≤ hi) .range
  require (hi ≤ 64) .range
  return s.setResults (toWord (parity data lo hi).toNat) 0

/-- BITS (40_bitcodec.md R142). -/
def execBits (s : State) : Host.Outcome State Fault Refusal := commandEnd s do
  let data ← operand s.opa
  let shift ← operand s.opb
  let mask ← operand s.opc
  require (shift ≤ 63) .range
  require (legalMask mask) .range
  require (shift + width mask ≤ 64) .range
  return s.setResults (toWord (bitsF data shift mask)) 0

/-- SETBITS (40_bitcodec.md R144). -/
def execSetbits (msb : Bool) (s : State) : Host.Outcome State Fault Refusal := commandEnd s do
  let data ← operand s.opa
  let value ← operand s.opb
  let shift ← operand s.opc
  let mask ← operand s.opd
  require (shift ≤ 63) .range
  require (legalMask mask) .range
  require (shift + width mask ≤ 64) .range
  require (value ≤ mask) .range
  return s.setResults (toWord (setBitsF data value shift mask msb)) 0

end Sys2Proof.Machine
end

