-- ==== Sys2Proof/Machine/Calendar.lean ====
section
/-! DEFINITION. The calendar functions of the records: proleptic Gregorian (41_records_common.md R174 to R177, R187), and
the US daylight-saving status of a date (43_wwvb.md R232). -/

namespace Sys2Proof.Machine

/-- `isLeap(Y)` (41_records_common.md R174). -/
def isLeap (y : Nat) : Bool := (y % 4 == 0 && y % 100 != 0) || y % 400 == 0

/-- `daysInMonth(Y, M)` for M = 1..12 (41_records_common.md R175); 0 for any other M, which no rule asks for. -/
def daysInMonth (y m : Nat) : Nat :=
  match m with
  | 1 => 31
  | 2 => if isLeap y then 29 else 28
  | 3 => 31
  | 4 => 30
  | 5 => 31
  | 6 => 30
  | 7 => 31
  | 8 => 31
  | 9 => 30
  | 10 => 31
  | 11 => 30
  | 12 => 31
  | _ => 0

/-- The days of months 1..n of year y. -/
def daysOfMonths (y : Nat) : Nat → Nat
  | 0 => 0
  | n + 1 => daysOfMonths y n + daysInMonth y (n + 1)

/-- `dayOfYear(Y, M, D)` (41_records_common.md R176): January 1 is day 1. -/
def dayOfYear (y m d : Nat) : Nat := d + daysOfMonths y (m - 1)

/-- The month offsets of R177. -/
def dowOffsets : List Nat := [0, 3, 2, 5, 0, 3, 5, 1, 4, 6, 2, 4]

/-- `dowSun0(Y, M, D)`: 0 = Sunday to 6 = Saturday (41_records_common.md R177). -/
def dowSun0 (y m d : Nat) : Nat :=
  let y' := y - (if m < 3 then 1 else 0)
  (y' + y' / 4 - y' / 100 + y' / 400 + dowOffsets.getD (m - 1) 0 + d) % 7

/-- `dowIso(Y, M, D)`: 1 = Monday to 7 = Sunday (41_records_common.md R177). -/
def dowIso (y m d : Nat) : Nat := if dowSun0 y m d = 0 then 7 else dowSun0 y m d

/-- `nthSunday(Y, M, n)`: the day of month of the n-th Sunday (41_records_common.md R187). -/
def nthSunday (y m n : Nat) : Nat := 1 + (7 - dowSun0 y m 1) % 7 + 7 * (n - 1)

/-- (m, d) comes before (m', d'): pairs compared lexicographically (43_wwvb.md R232). -/
def dateBefore (m d m' d' : Nat) : Bool := decide (m < m') || (m == m' && decide (d < d'))

/-- `usDst(Y, M, D)`: 2 DST begins today, 1 DST ends today, 3 in effect, 0 not in effect (43_wwvb.md R232). -/
def usDst (y m d : Nat) : Nat :=
  let b := nthSunday y 3 2
  let e := nthSunday y 11 1
  if m = 3 ∧ d = b then 2
  else if m = 11 ∧ d = e then 1
  else if dateBefore 3 b m d && dateBefore m d 11 e then 3
  else 0

end Sys2Proof.Machine
end

