-- ==== Sys2Proof/Machine/Bpc.lean ====
section
/-! DEFINITION. The BPC record: 60 two-bit symbols in three subframes (45_bpc.md). A field over several symbols has its
most significant two bits in the lowest slot. -/

namespace Sys2Proof.Machine

/-- `SYM(s) = FRAME[2s+1:2s]` (45_bpc.md R295). -/
def symAt (f : Frame) (s : Nat) : Nat := getLSB f (2 * s) 2

/-- `putSym(F, s0, n, v)`: the low 2n bits of v in symbols s0 to s0+n-1, high symbol first (45_bpc.md R294). -/
def putSym (f : Frame) (s0 : Nat) : Nat → Nat → Frame
  | 0, _ => f
  | n + 1, v => putLSB (putSym f s0 n (v / 4)) (2 * (s0 + n)) 2 (v % 4)

/-- `getSym(F, s0, n)` (45_bpc.md R294). -/
def getSym (f : Frame) (s0 : Nat) : Nat → Nat
  | 0 => 0
  | n + 1 => 4 * getSym f s0 n + symAt f (s0 + n)

/-- Subframe k of `ENCODE_BPC`, laid into F (45_bpc.md R291, R294). -/
def putSubframe (y mo d h m : Nat) (f : Frame) (k : Nat) : Frame :=
  let yy := y % 100
  let pm := if 12 ≤ h then 1 else 0
  let b := 20 * k
  let f := putSym f (b + 0) 1 k
  let f := putSym f (b + 3) 2 (h % 12)
  let f := putSym f (b + 5) 3 m
  let f := putSym f (b + 8) 2 (dowIso y mo d)
  let f := putSym f (b + 10) 1 (2 * pm + (frameParity f (2 * b + 2) (2 * b + 20)).toNat)
  let f := putSym f (b + 11) 3 d
  let f := putSym f (b + 14) 2 mo
  let f := putSym f (b + 16) 3 (yy % 64)
  putSym f (b + 19) 1 (2 * (yy / 64) + (frameParity f (2 * b + 22) (2 * b + 38)).toNat)

/-- `ENCODE_BPC(Y, M, D, h, m, T1)` (45_bpc.md R294). TIN1 is not read. -/
def encodeBpc (y mo d h m : Nat) (_t1 : Word) : Frame :=
  [0, 1, 2].foldl (putSubframe y mo d h m) 0

/-- Subframe k's part of `VALID_BPC` (45_bpc.md R296). -/
def validSubframe (f : Frame) (k : Nat) : Bool :=
  symAt f (20 * k) == k
    && f.getLsbD (40 * k + 20) == frameParity f (40 * k + 2) (40 * k + 20)
    && f.getLsbD (40 * k + 38) == frameParity f (40 * k + 22) (40 * k + 38)

/-- `VALID_BPC(F)` (45_bpc.md R296). -/
def validBpc (f : Frame) : Bool := [0, 1, 2].all (validSubframe f)

/-- `FIELD_BPC(F, f)`, read from subframe 0 (45_bpc.md R297). A field BPC lacks is UNSUPPORTED (41_records_common.md
R184). -/
def fieldBpc (f : Frame) : Field → Except ErrCode Nat
  | .hour => .ok (getSym f 3 2 + 12 * (f.getLsbD 21).toNat)
  | .minute => .ok (getSym f 5 3)
  | .weekday => .ok (getSym f 8 2)
  | .pm => .ok (f.getLsbD 21).toNat
  | .day => .ok (getSym f 11 3)
  | .month => .ok (getSym f 14 2)
  | .year => .ok (getSym f 16 3 + 64 * (f.getLsbD 39).toNat)
  | .dayOfYear => .error .unsupported
  | .cest => .error .unsupported
  | .cet => .error .unsupported
  | .dcfA1 => .error .unsupported
  | .dcfA2 => .error .unsupported
  | .dcfR => .error .unsupported
  | .dst => .error .unsupported
  | .leapYear => .error .unsupported
  | .leapSecond => .error .unsupported
  | .dut1Sign => .error .unsupported
  | .dut1 => .error .unsupported
  | .jjyLs => .error .unsupported
  | .jjySt => .error .unsupported
  | .callsign => .error .unsupported

end Sys2Proof.Machine
end

