-- ==== Sys2Proof/Machine/Dcf77.lean ====
section
/-! DEFINITION. The DCF77 record: encoder, validity and fields (42_dcf77.md). Fields are LSB-first: the weight-1 bit is
sent first. -/

namespace Sys2Proof.Machine

/-- `ENCODE_DCF77(Y, M, D, h, m, T1)` (42_dcf77.md R201). -/
def encodeDcf77 (y mo d h m : Nat) (t1 : Word) : Frame :=
  let f : Frame := 0
  let f := putBit f 15 (dcfR t1)
  let f := putBit f 16 (dcfA1 t1)
  let f := putBit f 17 (dcfZ1 t1)
  let f := putBit f 18 (dcfZ2 t1)
  let f := putBit f 19 (dcfA2 t1)
  let f := putBit f 20 true
  let f := putLSB f 21 7 (bcd m)
  let f := putParity f 28 21 28
  let f := putLSB f 29 6 (bcd h)
  let f := putParity f 35 29 35
  let f := putLSB f 36 6 (bcd d)
  let f := putLSB f 42 3 (dowIso y mo d)
  let f := putLSB f 45 5 (bcd mo)
  let f := putLSB f 50 8 (bcd (y % 100))
  putParity f 58 36 58

/-- `VALID_DCF77(F)` (42_dcf77.md R202). -/
def validDcf77 (f : Frame) : Bool :=
  !f.getLsbD 0 && !f.getLsbD 59 && f.getLsbD 20
    && f.getLsbD 28 == frameParity f 21 28
    && f.getLsbD 35 == frameParity f 29 35
    && f.getLsbD 58 == frameParity f 36 58

/-- `FIELD_DCF77(F, f)` (42_dcf77.md R203). A field DCF77 lacks is UNSUPPORTED (41_records_common.md R184). -/
def fieldDcf77 (f : Frame) : Field → Except ErrCode Nat
  | .minute => unbcd (getLSB f 21 7)
  | .hour => unbcd (getLSB f 29 6)
  | .day => unbcd (getLSB f 36 6)
  | .weekday => .ok (getLSB f 42 3)
  | .month => unbcd (getLSB f 45 5)
  | .year => unbcd (getLSB f 50 8)
  | .cest => .ok (f.getLsbD 17).toNat
  | .cet => .ok (f.getLsbD 18).toNat
  | .dcfA1 => .ok (f.getLsbD 16).toNat
  | .dcfA2 => .ok (f.getLsbD 19).toNat
  | .dcfR => .ok (f.getLsbD 15).toNat
  | .dayOfYear => .error .unsupported
  | .dst => .error .unsupported
  | .leapYear => .error .unsupported
  | .leapSecond => .error .unsupported
  | .dut1Sign => .error .unsupported
  | .dut1 => .error .unsupported
  | .jjyLs => .error .unsupported
  | .jjySt => .error .unsupported
  | .callsign => .error .unsupported
  | .pm => .error .unsupported

end Sys2Proof.Machine
end

