-- ==== Sys2Proof/Machine/Wwvb.lean ====
section
/-! DEFINITION. The WWVB record: encoder, validity and fields (43_wwvb.md). Fields are MSB-first. -/

namespace Sys2Proof.Machine

/-- The fixed zero bits of WWVB and JJY frames (43_wwvb.md R235, 44_jjy.md R264). -/
def zeroPositions : List Nat := [0, 4, 9, 14, 19, 24, 29, 39, 49, 59]

/-- The DUT1 sign code: 5 positive, 2 negative (43_wwvb.md R231). -/
def dut1SignCode (neg : Bool) : Nat := if neg then 2 else 5

/-- WWVB's own check of TIN1: WWVB_DUT1 <= 9, else RANGE (43_wwvb.md R234, 41_records_common.md R173 step 8). -/
def wwvbTin1Legal (t1 : Word) : Bool := decide (wwvbDut1 t1 ≤ 9)

/-- `ENCODE_WWVB(Y, M, D, h, m, T1)` (43_wwvb.md R234). -/
def encodeWwvb (y mo d h m : Nat) (t1 : Word) : Frame :=
  let f : Frame := 0
  let f := putMSB f 1 8 (bcd5 m)
  let f := putMSB f 12 7 (bcd5 h)
  let f := putMSB f 22 12 (bcd5 (dayOfYear y mo d))
  let f := putMSB f 36 3 (dut1SignCode (wwvbDut1Neg t1))
  let f := putMSB f 40 4 (wwvbDut1 t1)
  let f := putMSB f 45 9 (bcd5 (y % 100))
  let f := putBit f 55 (isLeap y)
  let f := putBit f 56 (wwvbLs t1)
  putMSB f 57 2 (usDst y mo d)

/-- `VALID_WWVB(F)` (43_wwvb.md R235). -/
def validWwvb (f : Frame) : Bool := zeroPositions.all (fun i => !f.getLsbD i)

/-- `FIELD_WWVB(F, f)` (43_wwvb.md R236). A field WWVB lacks is UNSUPPORTED (41_records_common.md R184). -/
def fieldWwvb (f : Frame) : Field → Except ErrCode Nat
  | .minute => unbcd5 (getMSB f 1 8)
  | .hour => unbcd5 (getMSB f 12 7)
  | .dayOfYear => unbcd5 (getMSB f 22 12)
  | .year => unbcd5 (getMSB f 45 9)
  | .dut1Sign => .ok (getMSB f 36 3)
  | .dut1 => unbcd (getMSB f 40 4)
  | .leapYear => .ok (f.getLsbD 55).toNat
  | .leapSecond => .ok (f.getLsbD 56).toNat
  | .dst => .ok (getMSB f 57 2)
  | .day => .error .unsupported
  | .month => .error .unsupported
  | .weekday => .error .unsupported
  | .cest => .error .unsupported
  | .cet => .error .unsupported
  | .dcfA1 => .error .unsupported
  | .dcfA2 => .error .unsupported
  | .dcfR => .error .unsupported
  | .jjyLs => .error .unsupported
  | .jjySt => .error .unsupported
  | .callsign => .error .unsupported
  | .pm => .error .unsupported

end Sys2Proof.Machine
end

