-- ==== Sys2Proof/Machine/Jjy.lean ====
section
/-! DEFINITION. The JJY record: encoder, validity and fields, with its call-sign minutes (44_jjy.md). Fields are
MSB-first. -/

namespace Sys2Proof.Machine

/-- `isCallsign(m)`: minutes 15 and 45 (44_jjy.md R262). -/
def isCallsign (m : Nat) : Bool := m == 15 || m == 45

/-- `cs(F)`: the call-sign predicate of a stored frame, from its decoded minute field; FORMAT where the field is
malformed (44_jjy.md R262). -/
def frameCallsign (f : Frame) : Except ErrCode Bool := do
  let m ← unbcd5 (getMSB f 1 8)
  return isCallsign m

/-- `ENCODE_JJY(Y, M, D, h, m, T1)` (44_jjy.md R263). -/
def encodeJjy (y mo d h m : Nat) (t1 : Word) : Frame :=
  let f : Frame := 0
  let f := putMSB f 1 8 (bcd5 m)
  let f := putMSB f 12 7 (bcd5 h)
  let f := putMSB f 22 12 (bcd5 (dayOfYear y mo d))
  let f := putParity f 36 12 19
  let f := putParity f 37 1 9
  if isCallsign m then putMSB f 50 6 (jjySt t1)
  else
    let f := putMSB f 41 8 (bcd (y % 100))
    let f := putMSB f 50 3 (dowSun0 y mo d)
    let f := putBit f 53 (jjyLs1 t1)
    putBit f 54 (jjyLs2 t1)

/-- `VALID_JJY(F)` (44_jjy.md R264). -/
def validJjy (f : Frame) : Bool :=
  zeroPositions.all (fun i => !f.getLsbD i)
    && f.getLsbD 36 == frameParity f 12 19
    && f.getLsbD 37 == frameParity f 1 9

/-- A field that only an ordinary minute has: UNSUPPORTED in a call-sign minute (44_jjy.md R265 steps 2 and 3). -/
def ordinaryOnly (f : Frame) (v : Except ErrCode Nat) : Except ErrCode Nat := do
  let cs ← frameCallsign f
  require (!cs) .unsupported
  v

/-- A field that only a call-sign minute has: UNSUPPORTED in an ordinary minute (44_jjy.md R265 steps 2 and 3). -/
def callsignOnly (f : Frame) (v : Except ErrCode Nat) : Except ErrCode Nat := do
  let cs ← frameCallsign f
  require cs .unsupported
  v

/-- `FIELD_JJY(F, f)` (44_jjy.md R265). A field JJY lacks is UNSUPPORTED whatever the minute (R265 step 1). -/
def fieldJjy (f : Frame) : Field → Except ErrCode Nat
  | .minute => unbcd5 (getMSB f 1 8)
  | .hour => unbcd5 (getMSB f 12 7)
  | .dayOfYear => unbcd5 (getMSB f 22 12)
  | .year => ordinaryOnly f (unbcd (getMSB f 41 8))
  | .weekday => ordinaryOnly f (.ok (getMSB f 50 3))
  | .jjyLs => ordinaryOnly f (.ok (getMSB f 53 2))
  | .jjySt => callsignOnly f (.ok (getMSB f 50 6))
  | .callsign => do
    let cs ← frameCallsign f
    return cs.toNat
  | .day => .error .unsupported
  | .month => .error .unsupported
  | .cest => .error .unsupported
  | .cet => .error .unsupported
  | .dcfA1 => .error .unsupported
  | .dcfA2 => .error .unsupported
  | .dcfR => .error .unsupported
  | .dst => .error .unsupported
  | .leapYear => .error .unsupported
  | .leapSecond => .error .unsupported
  | .dut1Sign => .error .unsupported
  | .dut1 => .error .unsupported
  | .pm => .error .unsupported

end Sys2Proof.Machine
end

