-- ==== Sys2Proof/Machine/Records.lean ====
section
/-! DEFINITION. The record commands (41_records_common.md R178 to R186): each dispatches on the standard to exactly one
per-standard rule (R171). -/

namespace Sys2Proof.Machine

/-- The time-input checks 1 to 7, in their order, each RANGE (41_records_common.md R173). -/
def checkTime (t0 t1 : Word) : Except ErrCode Unit := do
  require (tinReserved t0 == 0) .range
  require (1 ≤ tinYear t0 ∧ tinYear t0 ≤ 9999) .range
  require (1 ≤ tinMonth t0 ∧ tinMonth t0 ≤ 12) .range
  require (1 ≤ tinDay t0 ∧ tinDay t0 ≤ daysInMonth (tinYear t0) (tinMonth t0)) .range
  require (tinHour t0 ≤ 23) .range
  require (tinMinute t0 ≤ 59) .range
  require (t1 &&& tin1ReservedMask == 0) .range

/-- Check 8, the standard's own: WWVB_DUT1 <= 9; the others have none (41_records_common.md R173). -/
def checkTin1 (std : Std) (t1 : Word) : Except ErrCode Unit :=
  match std with
  | .dcf77 => .ok ()
  | .wwvb => require (wwvbTin1Legal t1) .range
  | .jjy => .ok ()
  | .bpc => .ok ()

/-- `ENCODE_std` (41_records_common.md R178). -/
def encodeRecord (std : Std) (y mo d h m : Nat) (t1 : Word) : Frame :=
  match std with
  | .dcf77 => encodeDcf77 y mo d h m t1
  | .wwvb => encodeWwvb y mo d h m t1
  | .jjy => encodeJjy y mo d h m t1
  | .bpc => encodeBpc y mo d h m t1

/-- `ENCODE_std` of TIN0's fields (41_records_common.md R178, 10_state.md R38). -/
def encodeTin (std : Std) (t0 t1 : Word) : Frame :=
  encodeRecord std (tinYear t0) (tinMonth t0) (tinDay t0) (tinHour t0) (tinMinute t0) t1

/-- `VALID_std` (41_records_common.md R183). -/
def validRecord (std : Std) (f : Frame) : Bool :=
  match std with
  | .dcf77 => validDcf77 f
  | .wwvb => validWwvb f
  | .jjy => validJjy f
  | .bpc => validBpc f

/-- `FIELD_std`, with the availability checks of R184 (41_records_common.md R182). -/
def fieldRecord (std : Std) (f : Frame) (fld : Field) : Except ErrCode Nat :=
  match std with
  | .dcf77 => fieldDcf77 f fld
  | .wwvb => fieldWwvb f fld
  | .jjy => fieldJjy f fld
  | .bpc => fieldBpc f fld

/-- FRAME, FRAME_TAG, RES0 = FRAME[63:0] and RES1 = FRAME[127:64] are written (41_records_common.md R178, R179). -/
def State.storeRecord (s : State) (std : Std) (f : Frame) : State :=
  (s.setFrame f std).setResults (frameLo f) (frameHi f)

/-- REC_ENCODE of one standard (41_records_common.md R178). -/
def recEncode (std : Std) (s : State) : Host.Outcome State Fault Refusal := commandEnd s do
  let t0 ← operandBits s.tin0
  let t1 ← operandBits s.tin1
  checkTime t0 t1
  checkTin1 std t1
  return s.storeRecord std (encodeTin std t0 t1)

/-- The frame a 60-bit load stores: reversed under MSB = 1 (41_records_common.md R179). -/
def loadFrame60 (msb : Bool) (raw : Nat) : Frame :=
  BitVec.ofNat 128 (if msb then reverseLow raw 60 else raw)

/-- REC_LOAD of a 60-bit standard (41_records_common.md R179). -/
def recLoad60 (std : Std) (msb : Bool) (s : State) : Host.Outcome State Fault Refusal := commandEnd s do
  let raw ← operand s.opa
  require (raw < 2 ^ 60) .range
  return s.storeRecord std (loadFrame60 msb raw)

/-- REC_LOAD.BPC: FRAME is OPB above OPA (41_records_common.md R179). -/
def recLoad120 (msb : Bool) (s : State) : Host.Outcome State Fault Refusal := commandEnd s do
  let lo ← operandBits s.opa
  let hi ← operandBits s.opb
  require (!msb) .unsupported
  require (hi.toNat < 2 ^ 56) .range
  return s.storeRecord .bpc (hi ++ lo)

/-- REC_ENCODE.DCF77 (41_records_common.md R178, 42_dcf77.md R201). -/
def execRecEncodeDcf77 (s : State) : Host.Outcome State Fault Refusal := recEncode .dcf77 s
/-- REC_ENCODE.WWVB (41_records_common.md R178, 43_wwvb.md R234). -/
def execRecEncodeWwvb (s : State) : Host.Outcome State Fault Refusal := recEncode .wwvb s
/-- REC_ENCODE.JJY (41_records_common.md R178, 44_jjy.md R263). -/
def execRecEncodeJjy (s : State) : Host.Outcome State Fault Refusal := recEncode .jjy s
/-- REC_ENCODE.BPC (41_records_common.md R178, 45_bpc.md R294). -/
def execRecEncodeBpc (s : State) : Host.Outcome State Fault Refusal := recEncode .bpc s

/-- REC_LOAD.DCF77 (41_records_common.md R179). -/
def execRecLoadDcf77 (msb : Bool) (s : State) : Host.Outcome State Fault Refusal := recLoad60 .dcf77 msb s
/-- REC_LOAD.WWVB (41_records_common.md R179). -/
def execRecLoadWwvb (msb : Bool) (s : State) : Host.Outcome State Fault Refusal := recLoad60 .wwvb msb s
/-- REC_LOAD.JJY (41_records_common.md R179). -/
def execRecLoadJjy (msb : Bool) (s : State) : Host.Outcome State Fault Refusal := recLoad60 .jjy msb s
/-- REC_LOAD.BPC (41_records_common.md R179). -/
def execRecLoadBpc (msb : Bool) (s : State) : Host.Outcome State Fault Refusal := recLoad120 msb s

/-- `FRAME[59:0]`, or the MSB0 form `reverse(FRAME, 60)` (41_records_common.md R180). -/
def rawValue (msb : Bool) (f : Frame) : Nat :=
  if msb then reverseLow f.toNat 60 else getLSB f 0 60

/-- REC_RAW (41_records_common.md R180). -/
def execRecRaw (msb : Bool) (s : State) : Host.Outcome State Fault Refusal := commandEnd s do
  requireFrame s
  require (s.frameTag.std != .bpc) .unsupported
  return s.setResults (toWord (rawValue msb s.frame)) 0

/-- REC_FIELD (41_records_common.md R182). The FIELD byte 0x15 to 0xFF, which no decoded word carries, is ILLEGAL
(30_encoding.md R108; notes/assumptions/19). -/
def execRecField (field : BitVec 8) (s : State) : Host.Outcome State Fault Refusal := commandEnd s do
  match fieldOfCode field with
  | none => throw .illegal
  | some fld =>
    requireFrame s
    let v ← fieldRecord s.frameTag.std s.frame fld
    return s.setResults (toWord v) 0

/-- REC_VALID (41_records_common.md R183). -/
def execRecValid (s : State) : Host.Outcome State Fault Refusal := commandEnd s do
  requireFrame s
  return s.setResults (toWord (validRecord s.frameTag.std s.frame).toNat) 0

/-- REC_SYM (41_records_common.md R181). -/
def execRecSym (s : State) : Host.Outcome State Fault Refusal := commandEnd s do
  let i ← operand s.opa
  requireFrame s
  require (s.frameTag.std == .bpc) .unsupported
  require (i ≤ 59) .range
  return s.setResults (toWord (symAt s.frame i)) 0

end Sys2Proof.Machine
end

