-- ==== Sys2Proof/Machine/Envelope.lean ====
section
/-! DEFINITION. The AM envelope scheduler: slot classes, prefix lengths, amplitudes, and the commands SCHEDULE and
ENVELOPE (46_envelope.md). -/

namespace Sys2Proof.Machine

/-- Slot classes (46_envelope.md R320). -/
inductive SlotClass where
  | data0
  | data1
  | marker
  | minuteMark
  | sym0
  | sym1
  | sym2
  | sym3
  | bpcMarker
  | morse
deriving DecidableEq, Repr

/-- The class code SCHEDULE returns (46_envelope.md R320). -/
def slotCode : SlotClass → Nat
  | .data0 => 0
  | .data1 => 1
  | .marker => 2
  | .minuteMark => 3
  | .sym0 => 4
  | .sym1 => 5
  | .sym2 => 6
  | .sym3 => 7
  | .bpcMarker => 8
  | .morse => 9

/-- DATA0 or DATA1, by the frame bit of second s (46_envelope.md R320). -/
def dataClass (f : Frame) (s : Nat) : SlotClass := if f.getLsbD s then .data1 else .data0

/-- A marker second of WWVB and JJY: s = 0 or s mod 10 = 9 (46_envelope.md R323, R324). -/
def isMarkerSecond (s : Nat) : Bool := s == 0 || s % 10 == 9

/-- A call-sign second of a JJY call-sign minute (46_envelope.md R324). -/
def isMorseSecond (s : Nat) : Bool := decide (40 ≤ s) && decide (s ≤ 48)

/-- SYM0 to SYM3 (46_envelope.md R325). -/
def symClass (v : Nat) : SlotClass :=
  match v with
  | 0 => .sym0
  | 1 => .sym1
  | 2 => .sym2
  | _ => .sym3

/-- The class of second s; `cs` is cs(F) of a JJY frame (46_envelope.md R322 to R325). -/
def slotClass (std : Std) (f : Frame) (cs : Bool) (s : Nat) : SlotClass :=
  match std with
  | .dcf77 => if s = 59 then .minuteMark else dataClass f s
  | .wwvb => if isMarkerSecond s then .marker else dataClass f s
  | .jjy =>
    if cs && isMorseSecond s then .morse
    else if isMarkerSecond s then .marker
    else dataClass f s
  | .bpc => if s % 20 = 0 then .bpcMarker else symClass (symAt f s)

/-- DCF77's prefix durations in ms (46_envelope.md R322). -/
def dcf77Ms : SlotClass → Nat
  | .data0 => 100
  | .data1 => 200
  | _ => 0

/-- WWVB's prefix durations in ms (46_envelope.md R323). -/
def wwvbMs : SlotClass → Nat
  | .data0 => 200
  | .data1 => 500
  | .marker => 800
  | _ => 0

/-- JJY's prefix durations in ms, the parameter JJY_MS (46_envelope.md R324); a MORSE second has none, P = 0. -/
def jjyPrefixMs (ms : JjyMs) : SlotClass → Nat
  | .data0 => ms.zero
  | .data1 => ms.one
  | .marker => ms.marker
  | _ => 0

/-- BPC's prefix durations in ms, the parameters BPC_SYM_MS and BPC_MARKER_MS (46_envelope.md R325). -/
def bpcPrefixMs (ms : BpcSymMs) (markerMs : Nat) : SlotClass → Nat
  | .sym0 => ms.sym0
  | .sym1 => ms.sym1
  | .sym2 => ms.sym2
  | .sym3 => ms.sym3
  | .bpcMarker => markerMs
  | _ => 0

/-- A class's prefix duration in ms (46_envelope.md R322 to R325). DCF77's MINUTE_MARK has 0; a class the standard never
has is never asked for. -/
def prefixMs (p : Params) (std : Std) (c : SlotClass) : Nat :=
  match std with
  | .dcf77 => dcf77Ms c
  | .wwvb => wwvbMs c
  | .jjy => jjyPrefixMs p.jjyMs c
  | .bpc => bpcPrefixMs p.bpcSymMs p.bpcMarkerMs c

/-- `P = (RATE * ms) div 1000` (46_envelope.md R321). -/
def prefixSamples (p : Params) (std : Std) (rate : Nat) (c : SlotClass) : Nat := rate * prefixMs p std c / 1000

/-- `LOW = 1.0 - d`, one binary64 subtraction (46_envelope.md R330). -/
def lowAmplitude (depth : Word) : Word := f64Sub f64One depth

/-- The index into MORSE_GATE of sample k of second s (46_envelope.md R327). -/
def morseIndex (rule : MorseRule) (rate s k : Nat) : Nat :=
  let pos := (s - 40) * rate + k
  let span := 9 * rate
  match rule with
  | .nearest => min 76 ((2 * pos * 77 + span) / (2 * span))
  | .containing => pos * 77 / span

/-- `MORSE_AMP(s, k)`: the gate's 0.0 or 1.0 (46_envelope.md R327). -/
def morseAmplitude (p : Params) (rate s k : Nat) : Word :=
  if p.morseGate.getLsbD (morseIndex p.morseRule rate s k) then f64One else f64Zero

/-- LOW_FIRST and FULL_FIRST (46_envelope.md R326): the amplitude of sample k of a second with a prefix of n samples. -/
def polarityAmplitude (std : Std) (depth : Word) (n k : Nat) : Word :=
  match std with
  | .dcf77 => if k < n then lowAmplitude depth else f64One
  | .wwvb => if k < n then lowAmplitude depth else f64One
  | .bpc => if k < n then lowAmplitude depth else f64One
  | .jjy => if k < n then f64One else lowAmplitude depth

/-- `amp(std, F, s, k)` (46_envelope.md R326). -/
def amplitude (p : Params) (std : Std) (f : Frame) (cs : Bool) (rate : Nat) (depth : Word) (s k : Nat) : Word :=
  match slotClass std f cs s with
  | .morse => morseAmplitude p rate s k
  | c => polarityAmplitude std depth (prefixSamples p std rate c) k

/-- cs(F) of a JJY frame, computed once per command; it may raise FORMAT, whatever the second (46_envelope.md R331).
The other standards do not decode a minute. -/
def callsignOf (std : Std) (f : Frame) : Except ErrCode Bool :=
  match std with
  | .jjy => frameCallsign f
  | .dcf77 => .ok false
  | .wwvb => .ok false
  | .bpc => .ok false

/-- SCHEDULE (46_envelope.md R328). -/
def execSchedule (s : State) : Host.Outcome State Fault Refusal := commandEnd s do
  let sec ← operand s.opa
  let rate ← operand s.rate
  requireFrame s
  require (rateLegal rate) .config
  require (sec ≤ 59) .range
  let cs ← callsignOf s.frameTag.std s.frame
  let c := slotClass s.frameTag.std s.frame cs sec
  return s.setResults (toWord (prefixSamples s.params s.frameTag.std rate c)) (toWord (slotCode c))

/-- ENVELOPE (46_envelope.md R329). -/
def execEnvelope (s : State) : Host.Outcome State Fault Refusal := commandEnd s do
  let sec ← operand s.opa
  let k ← operand s.opb
  let rate ← operand s.rate
  let depth ← operandBits s.depth
  requireFrame s
  require (rateLegal rate) .config
  require (inUnitInterval depth) .config
  require (sec ≤ 59) .range
  require (k < rate) .range
  let cs ← callsignOf s.frameTag.std s.frame
  return s.setResults (amplitude s.params s.frameTag.std s.frame cs rate depth sec k) 0

end Sys2Proof.Machine
end

