-- ==== Sys2Proof/Machine/Trig.lean ====
section
/-! DEFINITION. SIN64 and ASIN64, the parameters of 00_scope.md R6, under the bounds of 47_synth.md R352. The real sine
and arcsine are enclosed between two integers over a power of two, by fixed-point arithmetic of more than 300 bits; a
conforming result is one within 1 ulp of the enclosed value; which of them the block has is the parameter's choice, and
the correctly rounded one where the parameter names none (notes/assumptions/11 and 13). -/

namespace Sys2Proof.Machine

/-- A positive real v with lo <= v * 2^k <= hi, and the sign it carries. -/
structure Enclosure where
  neg : Bool
  lo  : Nat
  hi  : Nat
  k   : Nat
deriving DecidableEq, Repr

/-- floor(pi * 2^1536). -/
def piScaled : Nat :=
  0x3243f6a8885a308d313198a2e03707344a4093822299f31d0082efa98ec4e6c89452821e638d01377be5466cf34e90c6cc0ac29b7c97c50dd3f84d5b5b54709179216d5d98979fb1bd1310ba698dfb5ac2ffd72dbd01adfb7b8e1afed6a267e96ba7c9045f12c7f9924a19947b3916cf70801f2e2858efc16636920d871574e69a458fea3f4933d7e0d95748f728eb658718bcd5882154aee7b54a41dc25a59b59c30d5392af26013c5d1b023286085f0ca417918b8db38ef8e79dcb0603a180e

/-- The bits after the point of `piScaled`. -/
def piScaledBits : Nat := 1536

/-- 1 - r2/(2j(2j+1)) (1 - r2/((2j+2)(2j+3)) (...)), in units of 2^-k: the Taylor series of sin(r)/r from
term j on, for r2 = r^2 in units of 2^-k. -/
def sinSeries (k r2 : Nat) : Nat → Nat → Nat
  | 0, _ => 2 ^ k
  | terms + 1, j => 2 ^ k - r2 * sinSeries k r2 terms (j + 1) / (2 ^ k * (2 * j * (2 * j + 1)))

/-- 1/(2j+1) - t2 (1/(2j+3) - t2 (...)), in units of 2^-k: the series of arctan(t)/t from term j on, for
t2 = t^2 in units of 2^-k. -/
def atanSeries (k t2 : Nat) : Nat → Nat → Nat
  | 0, j => 2 ^ k / (2 * j + 1)
  | terms + 1, j => 2 ^ k / (2 * j + 1) - t2 * atanSeries k t2 terms (j + 1) / 2 ^ k

/-- Newton's iteration for the integer square root, downwards from a start that is not below it. -/
def sqrtDescend (n : Nat) : Nat → Nat → Nat
  | 0, x => x
  | fuel + 1, x =>
    let x' := (x + n / x) / 2
    if x ≤ x' then x else sqrtDescend n fuel x'

/-- floor(sqrt(n)). -/
def sqrtFloor (n : Nat) : Nat :=
  if n = 0 then 0 else sqrtDescend n 32 (2 ^ (Nat.log2 n / 2 + 1))

/-- |sin(x)| for x = m * 2^e > 0, and its sign: x modulo pi, brought into [0, pi/2], then the Taylor series. The
fixed-point errors stay below 16 units of 2^-k. -/
def sinEnclosure (neg : Bool) (m : Nat) (e : Int) : Enclosure :=
  let k := 320 + (-e).toNat
  let w := k + 64 + e.toNat
  let piW := piScaled / 2 ^ (piScaledBits - w)
  let x := m * 2 ^ (e + w).toNat
  let turns := x / piW
  let rest := x % piW
  let r := min rest (piW - rest) / 2 ^ (w - k)
  let s := r * sinSeries k (r * r / 2 ^ k) 64 1 / 2 ^ k
  ⟨neg != (turns % 2 == 1), s - 16, s + 16, k⟩

/-- The tangent of half the angle whose tangent is t, in units of 2^-k: t / (1 + sqrt(1 + t^2)). -/
def halfAngleTan (k t : Nat) : Nat :=
  t * 2 ^ k / (2 ^ k + sqrtFloor (4 ^ k + t * t))

/-- arcsin(y) for y = m * 2^e with 0 < y < 1: 8 arctan of the tangent of an eighth of the angle, whose half's tangent
is y / (1 + sqrt(1 - y^2)). The fixed-point errors stay below 128 units of 2^-k. Since arcsin(y) >= y, the lower bound is
at least y, and so not in the binade below where y is a power of two. -/
def asinEnclosure (neg : Bool) (m : Nat) (e : Int) : Enclosure :=
  let k := 320 + (-e).toNat
  let y := m * 2 ^ (e + k).toNat
  let t := y * 2 ^ k / (2 ^ k + sqrtFloor (4 ^ k - y * y))
  let t8 := halfAngleTan k (halfAngleTan k t)
  let a := 8 * (t8 * atanSeries k (t8 * t8 / 2 ^ k) 100 0 / 2 ^ k)
  ⟨neg, max y (a - 128), a + 128, k⟩

/-- The low 63 bits of a pattern: its magnitude, ordered as the finite values are. -/
def f64Mag (x : Word) : Nat := x.toNat % 2 ^ 63

/-- The correctly rounded value of an enclosed real, of magnitude at most `cap`. -/
def roundEnclosure (cap : Nat) (v : Enclosure) : Word :=
  f64Signed v.neg (min cap (f64Mag (f64Round false ((v.lo + v.hi) / 2) (2 ^ v.k))))

/-- y is a binary64 value within 1 ulp of the enclosed real (47_synth.md R352), of magnitude at most `cap`. PRESUMED
(unsafe; notes/assumptions/13): the spec does not say what an ulp is; here it is the spacing of binary64 values in the
binade of the enclosure's lower bound, which is the real's own unless a power of two lies above that bound and not above
the real. -/
def withinOneUlp (cap : Nat) (v : Enclosure) (y : Word) : Bool :=
  match f64Unpack y with
  | .fin neg m e =>
    let base := v.k + 1074
    let scaled := m * 2 ^ (e + base).toNat
    let ulp := 2 ^ (max ((Nat.log2 v.lo : Int) - v.k - 52) (-1074) + base).toNat
    (neg == v.neg || m == 0) && decide (f64Mag y ≤ cap)
      && decide (v.lo * 2 ^ 1074 ≤ scaled + ulp) && decide (scaled ≤ v.hi * 2 ^ 1074 + ulp)
  | .inf _ => false
  | .nan => false

/-- The value of a parameter function at x: the parameter's own entry where R352 allows it, else the correctly rounded
value. -/
def chooseWithinOneUlp (choice : List (Word × Word)) (cap : Nat) (x : Word) (v : Enclosure) : Word :=
  match choice.lookup x with
  | some y => if withinOneUlp cap v y then y else roundEnclosure cap v
  | none => roundEnclosure cap v

/-- PI64/2, the value R352 fixes for ASIN64(1.0). -/
def f64HalfPi : Word := 0x3FF921FB54442D18

/-- SIN64(x) (47_synth.md R352): within 1 ulp of sin(x) for finite x, of magnitude at most 1.0, SIN64(+0.0) = +0.0.
DESIGN CHOICE (notes/assumptions/23): SIN64(-0.0) = -0.0 whatever the parameter's list says; R352 fixes the value at +0.0
only, and no command reaches the argument -0.0. -/
def sin64 (choice : List (Word × Word)) (x : Word) : Word :=
  match f64Unpack x with
  | .fin neg m e =>
    if m = 0 then x else chooseWithinOneUlp choice (f64Mag f64One) x (sinEnclosure neg m e)
  | .inf _ => f64Nan
  | .nan => f64Nan

/-- ASIN64(y) (47_synth.md R352): within 1 ulp of asin(y) for y in [-1, 1], with its values at +0.0, 1.0 and -1.0 fixed.
The rules apply it to results of SIN64 only, which lie in [-1, 1]. DESIGN CHOICE (notes/assumptions/23): ASIN64(-0.0) = -0.0
whatever the parameter's list says, and a NaN outside [-1, 1]; R352 fixes neither, and no command reaches either. -/
def asin64 (choice : List (Word × Word)) (y : Word) : Word :=
  match f64Unpack y with
  | .fin neg m e =>
    if m = 0 then y
    else if f64Mag y = f64Mag f64One then f64Signed neg (f64Mag f64HalfPi)
    else if f64Mag f64One < f64Mag y then f64Nan
    else chooseWithinOneUlp choice (f64Mag f64HalfPi) y (asinEnclosure neg m e)
  | .inf _ => f64Nan
  | .nan => f64Nan

end Sys2Proof.Machine
end

