-- ==== Sys2Proof/Machine/Synth.lean ====
section
/-! DEFINITION. The per-sample PCM synthesiser: the three waveform calculators and the command SAMPLE (47_synth.md). -/

namespace Sys2Proof.Machine

/-- The phase argument x = (PI64 * f64(f)) * (f64(n) / f64(r)), each operator rounded (47_synth.md R350). -/
def phase (n f r : Nat) : Word :=
  f64Mul (f64Mul f64Pi (f64OfNat f)) (f64Div (f64OfNat n) (f64OfNat r))

/-- Sine: round((SIN64(x) * 32767.0) * a) (47_synth.md R353). -/
def sineSample (p : Params) (n f : Nat) (a : Word) (r : Nat) : Int :=
  f64RoundToInt (f64Mul (f64Mul (sin64 p.sinChoice (phase n f r)) f64FullScale) a)

/-- Square: round(((SIN64(x) >= 0.0) ? 32767.0 : -32768.0) * a), an IEEE comparison (47_synth.md R354). -/
def squareSample (p : Params) (n f : Nat) (a : Word) (r : Nat) : Int :=
  f64RoundToInt
    (f64Mul (if f64Le f64Zero (sin64 p.sinChoice (phase n f r)) then f64FullScale else f64SquareLow) a)

/-- Triangle: round((((2.0 / PI64) * ASIN64(SIN64(x))) * 32767.0) * a) (47_synth.md R355). -/
def triangleSample (p : Params) (n f : Nat) (a : Word) (r : Nat) : Int :=
  f64RoundToInt
    (f64Mul (f64Mul (f64Mul (f64Div f64Two f64Pi) (asin64 p.asinChoice (sin64 p.sinChoice (phase n f r)))) f64FullScale) a)

/-- The calculator SHAPE selects: 0 SINE, 1 SQUARE, 2 TRIANGLE (10_state.md R42, 47_synth.md R357). -/
def shapeSample (p : Params) (shape n f : Nat) (a : Word) (r : Nat) : Int :=
  if shape = 0 then sineSample p n f a r
  else if shape = 1 then squareSample p n f a r
  else triangleSample p n f a r

/-- SAMPLE (47_synth.md R357). RES0 is the sample, sign-extended to 64 bits. -/
def execSample (s : State) : Host.Outcome State Fault Refusal := commandEnd s do
  let n ← operand s.opa
  let a ← operandBits s.opb
  let freq ← operand s.freq
  let rate ← operand s.rate
  let shape ← operand s.shape
  require (rateLegal rate) .config
  require (freqLegal freq) .config
  require (shapeLegal shape) .config
  require (n < 2 ^ 53) .range
  require (inUnitInterval a) .range
  return s.setResults (BitVec.ofInt 64 (shapeSample s.params shape n freq a rate)) 0

end Sys2Proof.Machine
end

