-- ==== Sys2Proof/Machine/Render.lean ====
section
/-! DEFINITION. The minute-frame renderer: the command RENDER (48_render.md). -/

namespace Sys2Proof.Machine

/-- The configuration a RENDER works from: what it read when it started (48_render.md R380). -/
structure RenderJob where
  std      : Std
  frame    : Frame
  cs       : Bool
  rate     : Nat
  freq     : Nat
  shape    : Nat
  depth    : Word
  startSec : Nat
deriving DecidableEq, Repr

/-- N = RATE * (60 - START_SEC), the number of samples (48_render.md R381). -/
def renderCount (rate startSec : Nat) : Nat := rate * (60 - startSec)

/-- The running sample index n of sample j (48_render.md R382). -/
def sampleIndex (p : Params) (job : RenderJob) (j : Nat) : Nat :=
  match p.indexOrigin with
  | .minute => (job.startSec + j / job.rate) * job.rate + j % job.rate
  | .buffer => j

/-- Sample j of the buffer (48_render.md R380, R382): second START_SEC + j div RATE, sample j mod RATE within it. -/
def renderSample (p : Params) (job : RenderJob) (j : Nat) : BitVec 16 :=
  let a := amplitude p job.std job.frame job.cs job.rate job.depth (job.startSec + j / job.rate) (j % job.rate)
  BitVec.ofInt 16 (shapeSample p job.shape (sampleIndex p job j) job.freq a job.rate)

/-- The cells of the samples j from `first` on, `count` of them, in increasing j (48_render.md R380). -/
def renderCells (p : Params) (job : RenderJob) : Nat → Nat → List Host.Cell
  | _, 0 => []
  | first, count + 1 =>
    sampleCells (2 * first) (renderSample p job first) ++ renderCells p job (first + 1) count

/-- The PCM memory after the loop of R380: the buffer's 2N bytes from byte 0, and what older bytes lie above them
(48_render.md R383). Equal to the loop of sample writes (notes/assumptions/18). -/
def renderPcm (p : Params) (job : RenderJob) (m : List Host.Cell) : List Host.Cell :=
  let n := renderCount job.rate job.startSec
  renderCells p job 0 n ++ m.filter (fun c => decide (2 * n ≤ c.1))

/-- RENDER's checks, in R380's order, and the job they leave (48_render.md R380). -/
def renderJob (s : State) : Except ErrCode RenderJob := do
  let rate ← operand s.rate
  let freq ← operand s.freq
  let shape ← operand s.shape
  let depth ← operandBits s.depth
  let startSec ← operand s.startSec
  requireFrame s
  require (rateLegal rate) .config
  require ((allowedFreq s.params s.frameTag.std).contains freq) .config
  require (shapeLegal shape) .config
  require (inUnitInterval depth) .config
  require (startSecLegal startSec) .config
  require (2 * renderCount rate startSec ≤ s.params.pcmBytes) .config
  let cs ← callsignOf s.frameTag.std s.frame
  return ⟨s.frameTag.std, s.frame, cs, rate, freq, shape, depth, startSec⟩

/-- RENDER (48_render.md R380). -/
def execRender (s : State) : Host.Outcome State Fault Refusal := commandEnd s do
  let job ← renderJob s
  let n := renderCount job.rate job.startSec
  return (s.setPcm (renderPcm s.params job s.pcm) (toWord (2 * n))).setResults (toWord n) (toWord (2 * n))

end Sys2Proof.Machine
end

