-- ==== Sys2Proof/Machine/Dispatch.lean ====
section
/-! DEFINITION. The dispatch: one arm per command, each one call of its meaning. -/

namespace Sys2Proof.Machine

def exec (i : Instr) (s : State) : Host.Outcome State Fault Refusal :=
  match i with
  | .nop => Sys2Proof.Machine.execNop s
  | .bcdEnc => Sys2Proof.Machine.execBcdEnc s
  | .bcdDec => Sys2Proof.Machine.execBcdDec s
  | .bcd5Enc => Sys2Proof.Machine.execBcd5Enc s
  | .bcd5Dec => Sys2Proof.Machine.execBcd5Dec s
  | .reverse => Sys2Proof.Machine.execReverse s
  | .parity => Sys2Proof.Machine.execParity s
  | .bits => Sys2Proof.Machine.execBits s
  | .setbits msb => Sys2Proof.Machine.execSetbits msb s
  | .recEncodeDcf77 => Sys2Proof.Machine.execRecEncodeDcf77 s
  | .recEncodeWwvb => Sys2Proof.Machine.execRecEncodeWwvb s
  | .recEncodeJjy => Sys2Proof.Machine.execRecEncodeJjy s
  | .recEncodeBpc => Sys2Proof.Machine.execRecEncodeBpc s
  | .recLoadDcf77 msb => Sys2Proof.Machine.execRecLoadDcf77 msb s
  | .recLoadWwvb msb => Sys2Proof.Machine.execRecLoadWwvb msb s
  | .recLoadJjy msb => Sys2Proof.Machine.execRecLoadJjy msb s
  | .recLoadBpc msb => Sys2Proof.Machine.execRecLoadBpc msb s
  | .recRaw msb => Sys2Proof.Machine.execRecRaw msb s
  | .recField field => Sys2Proof.Machine.execRecField field s
  | .recValid => Sys2Proof.Machine.execRecValid s
  | .recSym => Sys2Proof.Machine.execRecSym s
  | .schedule => Sys2Proof.Machine.execSchedule s
  | .envelope => Sys2Proof.Machine.execEnvelope s
  | .sample => Sys2Proof.Machine.execSample s
  | .render => Sys2Proof.Machine.execRender s

end Sys2Proof.Machine
end

