-- ==== Sys2Proof/Machine/Port.lean ====
section
/-! DEFINITION. The host port: register and PCM accesses (10_state.md R30 to R36, 20_memory.md R70 to R80,
70_reset_and_hazards.md R445 to R449), reset (R440), the running command's end, and what happens next to the block. -/

namespace Sys2Proof.Machine

/-- `ID`'s constant (10_state.md R31). -/
def idConstant : Word := 0x4443463737000007

/-- The register at a byte offset of the port; none at a reserved offset (10_state.md R30, R53). -/
def regAtOffset (offset : Nat) : Option RegName :=
  match offset with
  | 0x00 => some .id
  | 0x08 => some .cmd
  | 0x10 => some .status
  | 0x18 => some .opa
  | 0x20 => some .opb
  | 0x28 => some .opc
  | 0x30 => some .opd
  | 0x38 => some .tin0
  | 0x40 => some .tin1
  | 0x48 => some .rate
  | 0x50 => some .freq
  | 0x58 => some .shape
  | 0x60 => some .depth
  | 0x68 => some .startSec
  | 0x70 => some .res0
  | 0x78 => some .res1
  | 0x80 => some .frameLo
  | 0x88 => some .frameHi
  | 0x90 => some .frameTag
  | 0x98 => some .pcmLen
  | _ => none

/-- The register a port access reaches: only 64 bits wide at a register's own offset; none is a bus error
(20_memory.md R71; offsets past the 256-byte port, notes/assumptions/15). -/
def portRegister (offset bits : Nat) : Option RegName := if bits = 64 then regAtOffset offset else none

/-- The effect of a performed host write of `v` (10_state.md R32, R34, R36): an RW register stores it and its written
flag is set; CMD also starts the command; STATUS clears LOST where bit 2 is 1; an RO register is not changed. -/
def writeRegister (r : RegName) (v : Word) (s : State) : State :=
  match r with
  | .id => s
  | .cmd => { s with cmd := Reg.store v, status := statusAccept s.status }
  | .status => { s with status := statusWritten v s.status }
  | .opa => { s with opa := Reg.store v }
  | .opb => { s with opb := Reg.store v }
  | .opc => { s with opc := Reg.store v }
  | .opd => { s with opd := Reg.store v }
  | .tin0 => { s with tin0 := Reg.store v }
  | .tin1 => { s with tin1 := Reg.store v }
  | .rate => { s with rate := Reg.store v }
  | .freq => { s with freq := Reg.store v }
  | .shape => { s with shape := Reg.store v }
  | .depth => { s with depth := Reg.store v }
  | .startSec => { s with startSec := Reg.store v }
  | .res0 => s
  | .res1 => s
  | .frameLo => s
  | .frameHi => s
  | .frameTag => s
  | .pcmLen => s

/-- A register's value where its written flag is set (10_state.md R33). -/
def flagged (written : Bool) (v : Word) : Option Word := if written then some v else none

/-- What a host read of a register returns; none, an unspecified value, where its written flag is clear (10_state.md R33). CMD reads 0 after
reset (R34; notes/assumptions/4). No read changes the block (20_memory.md R80). -/
def readRegister (r : RegName) (s : State) : Option Word :=
  match r with
  | .id => some idConstant
  | .cmd => some s.cmd.value
  | .status => some (statusWord s.status)
  | .opa => flagged s.opa.written s.opa.value
  | .opb => flagged s.opb.written s.opb.value
  | .opc => flagged s.opc.written s.opc.value
  | .opd => flagged s.opd.written s.opd.value
  | .tin0 => flagged s.tin0.written s.tin0.value
  | .tin1 => flagged s.tin1.written s.tin1.value
  | .rate => flagged s.rate.written s.rate.value
  | .freq => flagged s.freq.written s.freq.value
  | .shape => flagged s.shape.written s.shape.value
  | .depth => flagged s.depth.written s.depth.value
  | .startSec => flagged s.startSec.written s.startSec.value
  | .res0 => flagged s.res0.written s.res0.value
  | .res1 => flagged s.res1.written s.res1.value
  | .frameLo => flagged s.frameLoWritten (frameLo s.frame)
  | .frameHi => flagged s.frameHiWritten (frameHi s.frame)
  | .frameTag => some (frameTagWord s.frameTag)
  | .pcmLen => some s.pcmLen

/-- A host read ends with the value it returned. -/
def State.setReadData (s : State) (v : Word) : State := { s with readData := some v }

/-- The bits of an unwritten register that the spec leaves unspecified (10_state.md R52): all of them, but for
FRAME_HI[63:56], which is FRAME[127:120] and "always 0" (R46). -/
def unspecifiedBits (r : RegName) : Word := if r = .frameHi then 0x00FFFFFFFFFFFFFF else 0xFFFFFFFFFFFFFFFF

/-- What a host read of the unwritten register r at `offset` returns (10_state.md R33): a free value, the same at every such
read until a reset, since no read has a side effect (20_memory.md R80; notes/assumptions/24). -/
def unspecifiedValue (r : RegName) (offset : Nat) (s : State) : Word :=
  Config.unspecifiedContents s.resets offset &&& unspecifiedBits r

/-- A host write dropped because BUSY = 1 (70_reset_and_hazards.md R445, 60_exceptions.md R417). -/
def State.dropWrite (s : State) : State := { s with status := statusDropped s.status }

/-- A host write to the register port. While BUSY = 1 only a write to STATUS is performed
(70_reset_and_hazards.md R445). -/
def hostWriteReg (offset bits : Nat) (v : Word) (s : State) : Host.Outcome State Fault Refusal :=
  match portRegister offset bits with
  | none => .refused (.busErrorRegister offset bits)
  | some r =>
    .next (if s.status.busy && r != .status then s.dropWrite else writeRegister r v s)

/-- A host read of the register port; allowed while BUSY = 1 (70_reset_and_hazards.md R449). Of a register whose written
flag is clear it "returns an unspecified value" (10_state.md R33): a free value, no pick of the model's
(notes/assumptions/24). -/
def hostReadReg (offset bits : Nat) (s : State) : Host.Outcome State Fault Refusal :=
  match portRegister offset bits with
  | none => .refused (.busErrorRegister offset bits)
  | some r =>
    match readRegister r s with
    | some v => .next (s.setReadData v)
    | none => .next (s.setReadData (unspecifiedValue r offset s))

/-- The PCM memory the running RENDER will leave; none where no RENDER runs (70_reset_and_hazards.md R446). -/
def runningRenderPcm (s : State) : Option (List Host.Cell) :=
  match s.status.busy, decode s.cmd.value with
  | true, .ok .render =>
    match execRender s with
    | .next t => some t.pcm
    | .fault _ => none
    | .refused _ => none
  | _, _ => none

/-- The byte a PCM read sees at address a: while a RENDER runs, its value after or before the RENDER, as the free choice
for that byte says; else the current byte (70_reset_and_hazards.md R446). -/
def pcmReadByte (s : State) (base : Nat) (seesNew : BitVec 8) (a : Nat) : Option Byte :=
  match runningRenderPcm s with
  | some after => if seesNew.getLsbD (a - base) then pcmByte after a else pcmByte s.pcm a
  | none => pcmByte s.pcm a

/-- The widths of a PCM read (20_memory.md R75). -/
def pcmWidth (n : Nat) : Bool := n == 1 || n == 2 || n == 4 || n == 8

/-- A host PCM read `MemRead(addr, n)` (20_memory.md R75, R76). -/
def hostReadPcm (addr n : Nat) (seesNew : BitVec 8) (s : State) : Host.Outcome State Fault Refusal :=
  if pcmWidth n && decide (addr + n ≤ s.params.pcmBytes) then
    match memRead (pcmReadByte s addr seesNew) addr n with
    | .ok v => .next (s.setReadData (toWord v))
    | .error a => .fault (.unwrittenPcm a)
  else .refused (.busErrorPcm addr n)

/-- One host access. -/
def hostAccess (op : HostOp) (s : State) : Host.Outcome State Fault Refusal :=
  match op with
  | .writeReg offset bits v => hostWriteReg offset bits v s
  | .readReg offset bits => hostReadReg offset bits s
  | .readPcm addr n seesNew => hostReadPcm addr n seesNew s

/-- Reset: the command in progress is abandoned and every piece of the block's state takes its reset value
(70_reset_and_hazards.md R440). The parameters the block was built with, what reaches it next and what the host has read
are not the block's registers, and stay (notes/assumptions/21); the unwritten registers have new unspecified contents
(notes/assumptions/24). -/
def State.resetBlock (s : State) : State :=
  { State.reset with
    params := s.params
    events := s.events
    readData := s.readData
    resets := s.resets + 1 }

/-- The running command's end: an illegal word ends with ILLEGAL and changes nothing but STATUS (30_encoding.md R108,
60_exceptions.md R413 stage 1); a legal one has its meaning's effect. -/
def runCommand (s : State) : Host.Outcome State Fault Refusal :=
  match decode s.cmd.value with
  | .ok i => exec i s
  | .error _ => commandEnd s (.error .illegal)

/-- What reached the block is taken off the list. -/
def State.setEvents (s : State) (es : List Event) : State := { s with events := es }

/-- The command in progress, if any, ends; an idle block holds its state (60_exceptions.md R428;
notes/assumptions/17). -/
def endRunning (s : State) : Host.Outcome State Fault Refusal :=
  if s.status.busy then runCommand s else .next s

/-- What happens next (notes/assumptions/1): the oldest event; where none is left, the running command ends. -/
def nextEvent (s : State) : Host.Outcome State Fault Refusal :=
  match s.events with
  | [] => endRunning s
  | .host op :: rest => hostAccess op (s.setEvents rest)
  | .commandEnd :: rest => endRunning (s.setEvents rest)
  | .reset :: rest => .next (s.setEvents rest).resetBlock

/-- A command word of `nbits` bits accepted by CMD, with its end as what happens next (notes/assumptions/16). -/
def acceptWord (s : State) (nbits w : Nat) : State :=
  { s with
    cmd := Reg.store (BitVec.ofNat 64 (w % 2 ^ nbits))
    status := statusAccept s.status
    events := [] }

end Sys2Proof.Machine
end

