-- ==== Sys2Proof/Machine/Step.lean ====
section
/-! DEFINITION. One step of the machine: the next event, or the running command's end. -/

namespace Sys2Proof.Machine

/-- One step (notes/assumptions/1). -/
def step (s : State) : Host.Outcome State Fault Refusal := nextEvent s

/-- `s` just after the host's write of the command word was accepted, with nothing left but the command's end: the very
next step runs it (notes/assumptions/16). -/
def State.withFetchWord (s : State) (nbits w : Nat) : State := acceptWord s nbits w

end Sys2Proof.Machine
end

