-- ==== Sys2Proof/Safety.lean ====
section
/-! DEFINITION. What counts as a safe state, and the terms the claims are written in: the two ends of a command as record
updates, the operands and frames commands need, and the spec's tables of slots and fields, each written from the rule it
names and not from the meaning it is compared with. -/

namespace Sys2Proof.Machine

/-- A successful end that wrote RES0 and RES1 and nothing else (10_state.md R45, 60_exceptions.md R411). -/
def State.succeeded (s : State) (r0 r1 : Word) : State :=
  { s with
    res0 := ⟨r0, true⟩
    res1 := ⟨r1, true⟩
    status := { busy := false, err := false, lost := s.status.lost, ecode := none } }

/-- A successful end that wrote FRAME, FRAME_TAG, RES0 = FRAME[63:0] and RES1 = FRAME[127:64] and nothing else
(41_records_common.md R178, R179). -/
def State.recorded (s : State) (std : Std) (f : Frame) : State :=
  { s.succeeded (f.extractLsb' 0 64) (f.extractLsb' 64 64) with
    frame := f
    frameLoWritten := true
    frameHiWritten := true
    frameTag := { std := std, present := true } }

/-- An error end: nothing but STATUS changes, and LOST does not (60_exceptions.md R412). -/
def State.failed (s : State) (e : ErrCode) : State :=
  { s with status := { busy := false, err := true, lost := s.status.lost, ecode := some e } }

/-- The RW registers a command reads (30_encoding.md R106). -/
def operandsRead (i : Instr) (s : State) : List Reg :=
  match i with
  | .nop => []
  | .bcdEnc => [s.opa]
  | .bcdDec => [s.opa]
  | .bcd5Enc => [s.opa]
  | .bcd5Dec => [s.opa]
  | .reverse => [s.opa, s.opb]
  | .parity => [s.opa, s.opb, s.opc]
  | .bits => [s.opa, s.opb, s.opc]
  | .setbits _ => [s.opa, s.opb, s.opc, s.opd]
  | .recEncodeDcf77 => [s.tin0, s.tin1]
  | .recEncodeWwvb => [s.tin0, s.tin1]
  | .recEncodeJjy => [s.tin0, s.tin1]
  | .recEncodeBpc => [s.tin0, s.tin1]
  | .recLoadDcf77 _ => [s.opa]
  | .recLoadWwvb _ => [s.opa]
  | .recLoadJjy _ => [s.opa]
  | .recLoadBpc _ => [s.opa, s.opb]
  | .recRaw _ => []
  | .recField _ => []
  | .recValid => []
  | .recSym => [s.opa]
  | .schedule => [s.opa, s.rate]
  | .envelope => [s.opa, s.opb, s.rate, s.depth]
  | .sample => [s.opa, s.opb, s.freq, s.rate, s.shape]
  | .render => [s.rate, s.freq, s.shape, s.depth, s.startSec]

/-- Every RW register the command reads is written. -/
abbrev OperandsWritten (i : Instr) (s : State) : Prop := ∀ r ∈ operandsRead i s, r.written = true

/-- The commands that need a frame: the record commands but REC_ENCODE and REC_LOAD, and SCHEDULE, ENVELOPE and RENDER
(10_state.md R47). -/
def needsFrame : Instr → Bool
  | .recRaw _ => true
  | .recField _ => true
  | .recValid => true
  | .recSym => true
  | .schedule => true
  | .envelope => true
  | .render => true
  | _ => false

/-- REC_ENCODE and REC_LOAD, the commands that write FRAME (10_state.md R46). -/
def writesFrame : Instr → Bool
  | .recEncodeDcf77 => true
  | .recEncodeWwvb => true
  | .recEncodeJjy => true
  | .recEncodeBpc => true
  | .recLoadDcf77 _ => true
  | .recLoadWwvb _ => true
  | .recLoadJjy _ => true
  | .recLoadBpc _ => true
  | _ => false

/-- REC_ENCODE of a standard. -/
def recEncodeInstr : Std → Instr
  | .dcf77 => .recEncodeDcf77
  | .wwvb => .recEncodeWwvb
  | .jjy => .recEncodeJjy
  | .bpc => .recEncodeBpc

/-- The written flag of a register; ID, STATUS, FRAME_TAG and PCM_LEN carry none (10_state.md R33). -/
def writtenFlag (r : RegName) (s : State) : Bool :=
  match r with
  | .id => true
  | .cmd => s.cmd.written
  | .status => true
  | .opa => s.opa.written
  | .opb => s.opb.written
  | .opc => s.opc.written
  | .opd => s.opd.written
  | .tin0 => s.tin0.written
  | .tin1 => s.tin1.written
  | .rate => s.rate.written
  | .freq => s.freq.written
  | .shape => s.shape.written
  | .depth => s.depth.written
  | .startSec => s.startSec.written
  | .res0 => s.res0.written
  | .res1 => s.res1.written
  | .frameLo => s.frameLoWritten
  | .frameHi => s.frameHiWritten
  | .frameTag => true
  | .pcmLen => true

/-- The OPC values of 30_encoding.md R107. -/
def legalOpcodes : List Nat :=
  [0x00, 0x01, 0x02, 0x03, 0x04, 0x05, 0x06, 0x07, 0x08, 0x10, 0x11, 0x12, 0x13, 0x14, 0x15, 0x20, 0x21, 0x22, 0x30]

/-- A command word is illegal (30_encoding.md R108, its seven items; fields as R100 places them). -/
def IllegalWord (w : Word) : Prop :=
  let opc := w.toNat % 256
  let std := w.toNat / 2 ^ 8 % 8
  let field := w.toNat / 2 ^ 16 % 256
  opc ∉ legalOpcodes ∨
    (∃ i, ((12 ≤ i ∧ i ≤ 15) ∨ (24 ≤ i ∧ i ≤ 63)) ∧ w.getLsbD i = true) ∨
    (opc ≠ 0x10 ∧ opc ≠ 0x11 ∧ std ≠ 0) ∨
    ((opc = 0x10 ∨ opc = 0x11) ∧ 4 ≤ std) ∨
    (opc ≠ 0x08 ∧ opc ≠ 0x11 ∧ opc ≠ 0x12 ∧ w.getLsbD 11 = true) ∨
    (opc ≠ 0x13 ∧ field ≠ 0) ∨
    (opc = 0x13 ∧ 0x15 ≤ field)

/-- The register map, offset and register (10_state.md R30). -/
def registerMap : List (Nat × RegName) :=
  [(0x00, .id), (0x08, .cmd), (0x10, .status), (0x18, .opa), (0x20, .opb), (0x28, .opc), (0x30, .opd),
    (0x38, .tin0), (0x40, .tin1), (0x48, .rate), (0x50, .freq), (0x58, .shape), (0x60, .depth),
    (0x68, .startSec), (0x70, .res0), (0x78, .res1), (0x80, .frameLo), (0x88, .frameHi), (0x90, .frameTag),
    (0x98, .pcmLen)]

/-- The RW registers that only store what the host writes (10_state.md R30, R32; CMD's write also starts a command). -/
def storageRegisters : List RegName :=
  [.opa, .opb, .opc, .opd, .tin0, .tin1, .rate, .freq, .shape, .depth, .startSec]

/-- The RO registers (10_state.md R30). -/
def readOnlyRegisters : List RegName := [.id, .res0, .res1, .frameLo, .frameHi, .frameTag, .pcmLen]

/-- What reset leaves, so far as 10_state.md R52 states it: contents it leaves unspecified are not spoken of. -/
def AsReset (t : State) : Prop :=
  readRegister .id t = some 0x4443463737000007 ∧ readRegister .cmd t = some 0 ∧ readRegister .status t = some 0 ∧
    (∀ r ∈ storageRegisters ++ [.res0, .res1, .frameLo, .frameHi], writtenFlag r t = false) ∧
    readRegister .frameTag t = some 0 ∧ readRegister .pcmLen t = some 0 ∧
    (∀ a, pcmByte t.pcm a = none) ∧ t.status.busy = false

/-- The number of 1 bits of x in the half-open range [lo, hi). -/
def onesIn (x lo hi : Nat) : Nat := ((List.range (hi - lo)).filter (fun i => x.testBit (lo + i))).length

/-- The even-parity bit of bits lo to hi-1 (40_bitcodec.md R138). -/
def evenParityBit (x lo hi : Nat) : Bool := onesIn x lo hi % 2 == 1

/-- A civil date and time in range (41_records_common.md R173 checks 2 to 6). -/
abbrev DateLegal (y mo d h m : Nat) : Prop :=
  1 ≤ y ∧ y ≤ 9999 ∧ 1 ≤ mo ∧ mo ≤ 12 ∧ 1 ≤ d ∧ d ≤ daysInMonth y mo ∧ h ≤ 23 ∧ m ≤ 59

/-- YEAR, TIN0[15:0] (10_state.md R38). -/
abbrev yearBits (t0 : Word) : Nat := (t0.extractLsb' 0 16).toNat
/-- MONTH, TIN0[23:16] (10_state.md R38). -/
abbrev monthBits (t0 : Word) : Nat := (t0.extractLsb' 16 8).toNat
/-- DAY, TIN0[31:24] (10_state.md R38). -/
abbrev dayBits (t0 : Word) : Nat := (t0.extractLsb' 24 8).toNat
/-- HOUR, TIN0[39:32] (10_state.md R38). -/
abbrev hourBits (t0 : Word) : Nat := (t0.extractLsb' 32 8).toNat
/-- MINUTE, TIN0[47:40] (10_state.md R38). -/
abbrev minuteBits (t0 : Word) : Nat := (t0.extractLsb' 40 8).toNat

/-- TIN0 and TIN1 pass every check of 41_records_common.md R173 for the standard. -/
abbrev TimeLegal (std : Std) (t0 t1 : Word) : Prop :=
  t0.extractLsb' 48 16 = 0 ∧ DateLegal (yearBits t0) (monthBits t0) (dayBits t0) (hourBits t0) (minuteBits t0) ∧
    (∀ i, i < 64 → (5 ≤ i ∧ i ≤ 7) ∨ (9 ≤ i ∧ i ≤ 11) ∨ (17 ≤ i ∧ i ≤ 23) ∨ (26 ≤ i ∧ i ≤ 31) ∨ 38 ≤ i →
      t1.getLsbD i = false) ∧
    (std = .wwvb → (t1.extractLsb' 12 4).toNat ≤ 9)

/-- The number bits p to p+w-1 of a frame make with bit p the lowest: an LSB-first field (42_dcf77.md R200). -/
def lsbValue (f : Frame) (p w : Nat) : Nat := ((List.range w).map (fun i => (f.getLsbD (p + i)).toNat * 2 ^ i)).sum

/-- The number bits p to p+w-1 of a frame make with bit p the highest: an MSB-first field (43_wwvb.md R230). -/
def msbValue (f : Frame) (p w : Nat) : Nat :=
  ((List.range w).map (fun i => (f.getLsbD (p + i)).toNat * 2 ^ (w - 1 - i))).sum

/-- `SYM(s) = FRAME[2s+1 : 2s]` (45_bpc.md R295). -/
def symValue (f : Frame) (s : Nat) : Nat := 2 * (f.getLsbD (2 * s + 1)).toNat + (f.getLsbD (2 * s)).toNat

/-- The number symbols s0 to s0+n-1 make, the lowest slot highest (45_bpc.md R291). -/
def symField (f : Frame) (s0 n : Nat) : Nat :=
  ((List.range n).map (fun i => symValue f (s0 + i) * 4 ^ (n - 1 - i))).sum

/-- Packed BCD of a two-digit number (40_bitcodec.md R131). -/
def bcdOf (v : Nat) : Nat := 16 * (v / 10) + v % 10

/-- BCD5 of a number of at most three digits (40_bitcodec.md R134). -/
def bcd5Of (v : Nat) : Nat := 1024 * (v / 100) + 32 * (v / 10 % 10) + v % 10

/-- The minute field of a JJY frame is malformed: its pad bit, frame bit 4, is set or its units digit, frame bits 5 to 8, is
over 9 (44_jjy.md R262; the tens digit has three bits). -/
def minuteMalformed (f : Frame) : Bool := f.getLsbD 4 || decide (9 < msbValue f 5 4)

/-- The decoded minute of a JJY frame (44_jjy.md R260, R262). -/
def frameMinute (f : Frame) : Nat := 10 * msbValue f 1 3 + msbValue f 5 4

/-- A JJY frame of a call-sign minute (44_jjy.md R262). -/
def callsignMinute (f : Frame) : Bool := frameMinute f == 15 || frameMinute f == 45

/-- SCHEDULE, ENVELOPE and RENDER end with FORMAT on this frame (46_envelope.md R331). -/
abbrev FrameUndecodable (std : Std) (f : Frame) : Prop := std = .jjy ∧ minuteMalformed f = true

/-- The marker seconds of WWVB and JJY (46_envelope.md R323). -/
def markerSeconds : List Nat := [0, 9, 19, 29, 39, 49, 59]

/-- Class code and prefix ms of second s, from the tables of 46_envelope.md R320 to R325. -/
def slotTable (p : Params) (std : Std) (f : Frame) (s : Nat) : Nat × Nat :=
  match std with
  | .dcf77 => if s = 59 then (3, 0) else if f.getLsbD s then (1, 200) else (0, 100)
  | .wwvb => if s ∈ markerSeconds then (2, 800) else if f.getLsbD s then (1, 500) else (0, 200)
  | .jjy =>
    if callsignMinute f = true ∧ 40 ≤ s ∧ s ≤ 48 then (9, 0)
    else if s ∈ markerSeconds then (2, p.jjyMs.marker)
    else if f.getLsbD s then (1, p.jjyMs.one)
    else (0, p.jjyMs.zero)
  | .bpc =>
    if s ∈ [0, 20, 40] then (8, p.bpcMarkerMs)
    else
      match f.getLsbD (2 * s + 1), f.getLsbD (2 * s) with
      | false, false => (4, p.bpcSymMs.sym0)
      | false, true => (5, p.bpcSymMs.sym1)
      | true, false => (6, p.bpcSymMs.sym2)
      | true, true => (7, p.bpcSymMs.sym3)

/-- The Morse gate's index at sample k of second s (46_envelope.md R327). -/
def gateIndex (rule : MorseRule) (rate s k : Nat) : Nat :=
  match rule with
  | .nearest => min 76 ((2 * ((s - 40) * rate + k) * 77 + 9 * rate) / (2 * (9 * rate)))
  | .containing => ((s - 40) * rate + k) * 77 / (9 * rate)

/-- The amplitude of sample k of second s (46_envelope.md R321, R326, R327, R330): the gate's in a MORSE second; else the
full amplitude 1.0 in the prefix of a JJY second and after the prefix of any other, and `1.0 - d` elsewhere. -/
def envelopeAmplitude (p : Params) (std : Std) (f : Frame) (rate : Nat) (depth : Word) (s k : Nat) : Word :=
  if (slotTable p std f s).1 = 9 then (if p.morseGate.getLsbD (gateIndex p.morseRule rate s k) then f64One else f64Zero)
  else if (k < rate * (slotTable p std f s).2 / 1000 ↔ std = .jjy) then f64One
  else f64Sub f64One depth

/-- The sample a shape gives, from the formulas as 47_synth.md R350, R353, R354 and R355 write them. -/
def sampleValue (p : Params) (shape n f : Nat) (a : Word) (r : Nat) : Int :=
  let t := f64Div (f64OfNat n) (f64OfNat r)
  let x := f64Mul (f64Mul f64Pi (f64OfNat f)) t
  let y := sin64 p.sinChoice x
  match shape with
  | 0 => f64RoundToInt (f64Mul (f64Mul y f64FullScale) a)
  | 1 => f64RoundToInt (f64Mul (if f64Le f64Zero y then f64FullScale else f64SquareLow) a)
  | _ => f64RoundToInt (f64Mul (f64Mul (f64Mul (f64Div f64Two f64Pi) (asin64 p.asinChoice y)) f64FullScale) a)

/-- The running sample index of sample j of a buffer (48_render.md R382). -/
def runningIndex (p : Params) (rate startSec j : Nat) : Nat :=
  if p.indexOrigin = .minute then (startSec + j / rate) * rate + j % rate else j

/-- The 16 bits RENDER writes as sample j (48_render.md R380, R382). -/
def bufferSample (s : State) (j : Nat) : BitVec 16 :=
  let rate := s.rate.value.toNat
  let start := s.startSec.value.toNat
  BitVec.ofInt 16
    (sampleValue s.params s.shape.value.toNat (runningIndex s.params rate start j) s.freq.value.toNat
      (envelopeAmplitude s.params s.frameTag.std s.frame rate s.depth.value (start + j / rate) (j % rate)) rate)

/-- A cell of the field-availability table (41_records_common.md R184). -/
inductive FieldCell where
  | yes
  | absent
  | ordinary
  | callsign
deriving DecidableEq, Repr

/-- The field-availability table (41_records_common.md R184). -/
def fieldCell (fld : Field) (std : Std) : FieldCell :=
  match fld, std with
  | .minute, _ => .yes
  | .hour, _ => .yes
  | .day, .dcf77 => .yes
  | .day, .bpc => .yes
  | .month, .dcf77 => .yes
  | .month, .bpc => .yes
  | .year, .jjy => .ordinary
  | .year, _ => .yes
  | .weekday, .dcf77 => .yes
  | .weekday, .jjy => .ordinary
  | .weekday, .bpc => .yes
  | .dayOfYear, .wwvb => .yes
  | .dayOfYear, .jjy => .yes
  | .cest, .dcf77 => .yes
  | .cet, .dcf77 => .yes
  | .dcfA1, .dcf77 => .yes
  | .dcfA2, .dcf77 => .yes
  | .dcfR, .dcf77 => .yes
  | .dst, .wwvb => .yes
  | .leapYear, .wwvb => .yes
  | .leapSecond, .wwvb => .yes
  | .dut1Sign, .wwvb => .yes
  | .dut1, .wwvb => .yes
  | .jjyLs, .jjy => .ordinary
  | .jjySt, .jjy => .callsign
  | .callsign, .jjy => .yes
  | .pm, .bpc => .yes
  | _, _ => .absent

/-- A BCD field of at most 8 bits, decoded (40_bitcodec.md R132, 41_records_common.md R188). -/
def bcdValue (x : Nat) : Except ErrCode Nat :=
  if x % 16 ≤ 9 ∧ x / 16 ≤ 9 then .ok (10 * (x / 16) + x % 16) else .error .format

/-- A BCD5 field of at most 12 bits, decoded (40_bitcodec.md R135, 41_records_common.md R188). -/
def bcd5Value (x : Nat) : Except ErrCode Nat :=
  if x % 32 ≤ 9 ∧ x / 32 % 32 ≤ 9 ∧ x / 1024 ≤ 9 then .ok (100 * (x / 1024) + 10 * (x / 32 % 32) + x % 32)
  else .error .format

/-- The value of a field the frame has (42_dcf77.md R203, 43_wwvb.md R236, 44_jjy.md R265, 45_bpc.md R297); of a field the
standard lacks, UNSUPPORTED. -/
def fieldValue (std : Std) (f : Frame) (fld : Field) : Except ErrCode Nat :=
  match std, fld with
  | .dcf77, .minute => bcdValue (lsbValue f 21 7)
  | .dcf77, .hour => bcdValue (lsbValue f 29 6)
  | .dcf77, .day => bcdValue (lsbValue f 36 6)
  | .dcf77, .weekday => .ok (lsbValue f 42 3)
  | .dcf77, .month => bcdValue (lsbValue f 45 5)
  | .dcf77, .year => bcdValue (lsbValue f 50 8)
  | .dcf77, .cest => .ok (f.getLsbD 17).toNat
  | .dcf77, .cet => .ok (f.getLsbD 18).toNat
  | .dcf77, .dcfA1 => .ok (f.getLsbD 16).toNat
  | .dcf77, .dcfA2 => .ok (f.getLsbD 19).toNat
  | .dcf77, .dcfR => .ok (f.getLsbD 15).toNat
  | .wwvb, .minute => bcd5Value (msbValue f 1 8)
  | .wwvb, .hour => bcd5Value (msbValue f 12 7)
  | .wwvb, .dayOfYear => bcd5Value (msbValue f 22 12)
  | .wwvb, .year => bcd5Value (msbValue f 45 9)
  | .wwvb, .dut1Sign => .ok (msbValue f 36 3)
  | .wwvb, .dut1 => bcdValue (msbValue f 40 4)
  | .wwvb, .leapYear => .ok (f.getLsbD 55).toNat
  | .wwvb, .leapSecond => .ok (f.getLsbD 56).toNat
  | .wwvb, .dst => .ok (2 * (f.getLsbD 57).toNat + (f.getLsbD 58).toNat)
  | .jjy, .minute => bcd5Value (msbValue f 1 8)
  | .jjy, .hour => bcd5Value (msbValue f 12 7)
  | .jjy, .dayOfYear => bcd5Value (msbValue f 22 12)
  | .jjy, .year => bcdValue (msbValue f 41 8)
  | .jjy, .weekday => .ok (msbValue f 50 3)
  | .jjy, .jjyLs => .ok (2 * (f.getLsbD 53).toNat + (f.getLsbD 54).toNat)
  | .jjy, .jjySt => .ok (msbValue f 50 6)
  | .jjy, .callsign => .ok (callsignMinute f).toNat
  | .bpc, .hour => .ok (symField f 3 2 + 12 * (f.getLsbD 21).toNat)
  | .bpc, .minute => .ok (symField f 5 3)
  | .bpc, .weekday => .ok (symField f 8 2)
  | .bpc, .pm => .ok (f.getLsbD 21).toNat
  | .bpc, .day => .ok (symField f 11 3)
  | .bpc, .month => .ok (symField f 14 2)
  | .bpc, .year => .ok (symField f 16 3 + 64 * (f.getLsbD 39).toNat)
  | _, _ => .error .unsupported

/-- What REC_FIELD gives on a frame, with its checks in their order (41_records_common.md R182, R184, 44_jjy.md R265). -/
def fieldResult (std : Std) (f : Frame) (fld : Field) : Except ErrCode Nat :=
  match fieldCell fld std with
  | .absent => .error .unsupported
  | .yes => if fld = .callsign ∧ minuteMalformed f = true then .error .format else fieldValue std f fld
  | .ordinary =>
    if minuteMalformed f then .error .format
    else if callsignMinute f then .error .unsupported
    else fieldValue std f fld
  | .callsign =>
    if minuteMalformed f then .error .format
    else if callsignMinute f then fieldValue std f fld
    else .error .unsupported

/-- The fixed zero positions of WWVB and JJY frames (43_wwvb.md R235, 44_jjy.md R264). -/
def fixedZeros : List Nat := [0, 4, 9, 14, 19, 24, 29, 39, 49, 59]

/-- The validity conditions (42_dcf77.md R202, 43_wwvb.md R235, 44_jjy.md R264, 45_bpc.md R296). -/
def FrameValid (std : Std) (f : Frame) : Prop :=
  match std with
  | .dcf77 =>
    f.getLsbD 0 = false ∧ f.getLsbD 59 = false ∧ f.getLsbD 20 = true ∧
      f.getLsbD 28 = evenParityBit f.toNat 21 28 ∧ f.getLsbD 35 = evenParityBit f.toNat 29 35 ∧
      f.getLsbD 58 = evenParityBit f.toNat 36 58
  | .wwvb => ∀ i ∈ fixedZeros, f.getLsbD i = false
  | .jjy =>
    (∀ i ∈ fixedZeros, f.getLsbD i = false) ∧
      f.getLsbD 36 = evenParityBit f.toNat 12 19 ∧ f.getLsbD 37 = evenParityBit f.toNat 1 9
  | .bpc =>
    ∀ k, k < 3 →
      symValue f (20 * k) = k ∧ f.getLsbD (40 * k + 20) = evenParityBit f.toNat (40 * k + 2) (40 * k + 20) ∧
        f.getLsbD (40 * k + 38) = evenParityBit f.toNat (40 * k + 22) (40 * k + 38)

/-- The FIELD value of a field (30_encoding.md R104). -/
def fieldCode : Field → BitVec 8
  | .minute => 0x00
  | .hour => 0x01
  | .day => 0x02
  | .month => 0x03
  | .year => 0x04
  | .weekday => 0x05
  | .dayOfYear => 0x06
  | .cest => 0x07
  | .cet => 0x08
  | .dcfA1 => 0x09
  | .dcfA2 => 0x0A
  | .dcfR => 0x0B
  | .dst => 0x0C
  | .leapYear => 0x0D
  | .leapSecond => 0x0E
  | .dut1Sign => 0x0F
  | .dut1 => 0x10
  | .jjyLs => 0x11
  | .jjySt => 0x12
  | .callsign => 0x13
  | .pm => 0x14

/-- What a field of an encoded record decodes to, where the record carries it: "decode(encode(fields)) == fields"
(41_records_common.md R185, with the tables of R184, 42_dcf77.md R203, 43_wwvb.md R236, 44_jjy.md R265, 45_bpc.md R297). -/
def encodedField (std : Std) (y mo d h m : Nat) (t1 : Word) (fld : Field) : Option Nat :=
  match std, fld with
  | _, .minute => some m
  | _, .hour => some h
  | .dcf77, .day => some d
  | .bpc, .day => some d
  | .dcf77, .month => some mo
  | .bpc, .month => some mo
  | .jjy, .year => if m = 15 ∨ m = 45 then none else some (y % 100)
  | _, .year => some (y % 100)
  | .dcf77, .weekday => some (dowIso y mo d)
  | .bpc, .weekday => some (dowIso y mo d)
  | .jjy, .weekday => if m = 15 ∨ m = 45 then none else some (dowSun0 y mo d)
  | .wwvb, .dayOfYear => some (dayOfYear y mo d)
  | .jjy, .dayOfYear => some (dayOfYear y mo d)
  | .dcf77, .cest => some (t1.getLsbD 2).toNat
  | .dcf77, .cet => some (t1.getLsbD 3).toNat
  | .dcf77, .dcfA1 => some (t1.getLsbD 1).toNat
  | .dcf77, .dcfA2 => some (t1.getLsbD 4).toNat
  | .dcf77, .dcfR => some (t1.getLsbD 0).toNat
  | .wwvb, .dst => some (usDst y mo d)
  | .wwvb, .leapYear => some (isLeap y).toNat
  | .wwvb, .leapSecond => some (t1.getLsbD 16).toNat
  | .wwvb, .dut1Sign => some (if t1.getLsbD 8 then 2 else 5)
  | .wwvb, .dut1 => some (t1.toNat / 2 ^ 12 % 16)
  | .jjy, .jjyLs =>
    if m = 15 ∨ m = 45 then none else some (2 * (t1.getLsbD 24).toNat + (t1.getLsbD 25).toNat)
  | .jjy, .jjySt => if m = 15 ∨ m = 45 then some (t1.toNat / 2 ^ 32 % 64) else none
  | .jjy, .callsign => some (if m = 15 ∨ m = 45 then 1 else 0)
  | .bpc, .pm => some (if 12 ≤ h then 1 else 0)
  | _, _ => none

/-- `ALLOWED_FREQ(std)`: DCF77's own three values, and the parameter for the others (10_state.md R41). -/
abbrev carrierList (p : Params) (std : Std) : List Nat :=
  match std with
  | .dcf77 => [13700, 15500, 17125]
  | .wwvb => p.allowedWwvb
  | .jjy => p.allowedJjy
  | .bpc => p.allowedBpc

/-- RENDER's configuration is legal (48_render.md R380): every check it makes but the call-sign decode holds.
FREQ is checked by membership of the list alone (notes/assumptions/22). -/
abbrev RenderConfigLegal (s : State) : Prop :=
  1 ≤ s.rate.value.toNat ∧ s.rate.value.toNat ≤ 2 ^ 32 - 1 ∧
    s.freq.value.toNat ∈ carrierList s.params s.frameTag.std ∧
    s.shape.value.toNat ≤ 2 ∧ inUnitInterval s.depth.value = true ∧ s.startSec.value.toNat ≤ 59 ∧
    2 * (s.rate.value.toNat * (60 - s.startSec.value.toNat)) ≤ s.params.pcmBytes

/-- The exact rational value of a finite binary64 pattern (00_scope.md R13); 0 for the others. -/
def f64Rat (x : Word) : ℚ :=
  match f64Unpack x with
  | .fin neg m e => (if neg then -1 else 1) * m * (2 : ℚ) ^ e
  | .inf _ => 0
  | .nan => 0

/-- y is a finite binary64 value nearest to the rational v, and the one with an even last bit where two are equally near
(00_scope.md R13: round-to-nearest-even). -/
def NearestEven (v : ℚ) (y : Word) : Prop :=
  f64Finite y = true ∧
    ∀ z, f64Finite z = true →
      |f64Rat y - v| ≤ |f64Rat z - v| ∧
        (|f64Rat y - v| = |f64Rat z - v| → f64Rat z ≠ f64Rat y → y.toNat % 2 = 0)

/-- The real an enclosure stands for, as the model rounds it: its middle. -/
def Enclosure.mid (v : Enclosure) : ℚ := (if v.neg then -1 else 1) * (((v.lo + v.hi) / 2 : Nat) : ℚ) / 2 ^ v.k

/-- The spacing of binary64 values in the binade of an enclosure's lower bound, the model's ulp (notes/assumptions/13). -/
def Enclosure.ulp (v : Enclosure) : ℚ := (2 : ℚ) ^ (max ((Nat.log2 v.lo : Int) - v.k - 52) (-1074))

/-- R352 allows the result u: a binary64 value of magnitude at most `cap`, on the real's own side of 0 or 0, and within
1 ulp of a real of the enclosure (47_synth.md R352, notes/assumptions/13). -/
def Enclosure.Admits (v : Enclosure) (cap : ℚ) (u : Word) : Prop :=
  f64Finite u = true ∧ |f64Rat u| ≤ cap ∧ (f64Rat u = 0 ∨ (f64Rat u < 0 ↔ v.neg = true)) ∧
    ∃ r : ℚ, (v.lo : ℚ) ≤ r * 2 ^ v.k ∧ r * 2 ^ v.k ≤ v.hi ∧ |(|f64Rat u|) - r| ≤ v.ulp

/-- y is the parameter's own result at x where R352 allows that result, and otherwise the enclosed real rounded to nearest
and brought to magnitude at most `cap` (47_synth.md R352, notes/assumptions/11). -/
def ChosenResult (choice : List (Word × Word)) (cap : ℚ) (x : Word) (v : Enclosure) (y : Word) : Prop :=
  (∀ u, choice.lookup x = some u → v.Admits cap u → y = u) ∧
    ((∀ u, choice.lookup x = some u → ¬v.Admits cap u) →
      ∃ z, NearestEven v.mid z ∧ f64Rat y = max (-cap) (min cap (f64Rat z)))

/-- The invariant of the block. -/
structure State.Inv (s : State) : Prop where
  /-- The PCM memory is in its canonical form. -/
  pcmWf : Memory.wf s.pcm = true
  /-- Every written byte lies in the memory (20_memory.md R70). -/
  pcmWithin : Memory.within s.params.pcmBytes s.pcm = true
  /-- Every byte of the current buffer is written (48_render.md R383). -/
  bufferWritten : ∀ a, a < s.pcmLen.toNat → (pcmByte s.pcm a).isSome = true
  /-- "ERR = 1 if and only if ECODE != 0" (10_state.md R35). -/
  errIffEcode : s.status.err = s.status.ecode.isSome
  /-- FRAME[127:120] is always 0 (10_state.md R46), with or without a frame. -/
  frameTop : s.frame.toNat < 2 ^ 120
  /-- For a DCF77, WWVB or JJY frame, FRAME[127:60] is 0 (10_state.md R46). -/
  frameSixty : s.frameTag.present = true → s.frameTag.std ≠ .bpc → s.frame.toNat < 2 ^ 60
  /-- FRAME and FRAME_TAG are written together (41_records_common.md R186). -/
  frameLoFlag : s.frameLoWritten = s.frameTag.present
  /-- FRAME and FRAME_TAG are written together (41_records_common.md R186). -/
  frameHiFlag : s.frameHiWritten = s.frameTag.present
  /-- RES0 and RES1 are written together (10_state.md R45). -/
  resultFlags : s.res0.written = s.res1.written

end Sys2Proof.Machine
end

