-- ==== Sys2Proof/Certificates/Slice0/Obligations.lean ====
section
/-! DEFINITION. The statements for the provers, from the numbered rules of the spec. -/

open Sys2Proof Sys2Proof.Machine

/-- 10_state.md R52: what reset leaves, where R52 states it. -/
def Obligations.ResetLeavesStatedValues : Prop := AsReset State.reset

/-- 70_reset_and_hazards.md R440: reset at any time, a command in progress or not, leaves the reset state, and the block
takes the next command word. -/
def Obligations.ResetAtAnyTime : Prop :=
  ∀ (s : State) (rest : List Event), s.events = .reset :: rest →
    ∃ t, step s = .next t ∧ AsReset t ∧
      ∀ v, ∃ u, hostAccess (.writeReg 0x08 64 v) t = .next u ∧ u.status.busy = true ∧ u.cmd.value = v

/-- 70_reset_and_hazards.md R442 (derived in the spec) and 10_state.md R33: no step but a reset clears a written flag or
PRESENT, or brings PCM_LEN back to 0. -/
def Obligations.OnlyResetUnwrites : Prop :=
  ∀ (s t : State), step s = .next t → (∀ rest, s.events ≠ .reset :: rest) →
    (∀ r, writtenFlag r s = true → writtenFlag r t = true) ∧
      (s.frameTag.present = true → t.frameTag.present = true) ∧ (s.pcmLen ≠ 0 → t.pcmLen ≠ 0)

/-- 20_memory.md R71, 10_state.md R53: a 64-bit access at an offset of the register map is performed, and every other
access of the port's 256 bytes is refused. A read whose written flag is clear returns a free value, whatever that is, which
only a reset changes (R33, notes/assumptions/24); FRAME[127:120] is 0 in it (R46). No read has a side effect, and each is
idempotent (R80). That CMD is read without its flag is notes/assumptions/4. -/
def Obligations.RegisterPortAccesses : Prop :=
  ∀ s : State,
    (∀ off r, (off, r) ∈ registerMap →
      (∀ v, readRegister r s = some v → hostAccess (.readReg off 64) s = .next { s with readData := some v }) ∧
      (readRegister r s = none →
        ∃ v : Word, hostAccess (.readReg off 64) s = .next { s with readData := some v } ∧
          ∀ i, i < 64 → v.getLsbD i =
            ((Config.unspecifiedContents s.resets off).getLsbD i && !(decide (r = .frameHi) && decide (56 ≤ i)))) ∧
      (∃ t, hostAccess (.readReg off 64) s = .next t ∧ t = { s with readData := t.readData } ∧
        hostAccess (.readReg off 64) t = .next t) ∧
      (readRegister r s = none ↔ r ≠ .cmd ∧ writtenFlag r s = false) ∧
      (∀ v, ∃ t, hostAccess (.writeReg off 64 v) s = .next t)) ∧
    (∀ off bits, off < 256 → (bits ≠ 64 ∨ off % 8 ≠ 0 ∨ 0xA0 ≤ off) →
      hostAccess (.readReg off bits) s = .refused (.busErrorRegister off bits) ∧
      ∀ v, hostAccess (.writeReg off bits v) s = .refused (.busErrorRegister off bits))

/-- 10_state.md R32, at an idle block: what a write does to a register of each access class, and to every other one. -/
def Obligations.AccessClasses : Prop :=
  ∀ (s : State) (v : Word), s.status.busy = false →
    (∀ off r, (off, r) ∈ registerMap → r ∈ storageRegisters →
      ∃ t, hostAccess (.writeReg off 64 v) s = .next t ∧ readRegister r t = some v ∧ writtenFlag r t = true ∧
        (∀ r', r' ≠ r → readRegister r' t = readRegister r' s ∧ writtenFlag r' t = writtenFlag r' s) ∧
        t.pcm = s.pcm ∧ t.frame = s.frame) ∧
    (∀ off r, (off, r) ∈ registerMap → r ∈ readOnlyRegisters → hostAccess (.writeReg off 64 v) s = .next s) ∧
    (∃ t, hostAccess (.writeReg 0x08 64 v) s = .next t ∧ readRegister .cmd t = some v ∧ writtenFlag .cmd t = true) ∧
    (∃ t, hostAccess (.writeReg 0x10 64 v) s = .next t ∧
      t.status.lost = (if v.getLsbD 2 then false else s.status.lost))

/-- 10_state.md R34: the accepted CMD write, the dropped one, and what CMD reads. -/
def Obligations.CommandWrite : Prop :=
  ∀ (s : State) (v : Word),
    (s.status.busy = false →
      hostAccess (.writeReg 0x08 64 v) s =
        .next { s with cmd := ⟨v, true⟩, status := { s.status with busy := true } }) ∧
    (s.status.busy = true →
      hostAccess (.writeReg 0x08 64 v) s = .next { s with status := { s.status with lost := true } }) ∧
    hostAccess (.readReg 0x08 64) s = .next { s with readData := some s.cmd.value } ∧
    readRegister .cmd State.reset = some 0

/-- 70_reset_and_hazards.md R445: while BUSY, every write but one to STATUS is dropped and sets LOST. -/
def Obligations.WritesWhileBusyAreDropped : Prop :=
  ∀ (s : State) (off : Nat) (r : RegName) (v : Word), s.status.busy = true → (off, r) ∈ registerMap →
    (r ≠ .status → hostAccess (.writeReg off 64 v) s = .next { s with status := { s.status with lost := true } }) ∧
    (r = .status →
      hostAccess (.writeReg off 64 v) s =
        .next { s with status := { s.status with lost := s.status.lost && !v.getLsbD 2 } })

/-- 10_state.md R36: a write to STATUS, whatever BUSY, clears LOST by bit 2 and does nothing else. -/
def Obligations.StatusWrite : Prop :=
  ∀ (s : State) (v : Word),
    hostAccess (.writeReg 0x10 64 v) s =
      .next { s with status := { s.status with lost := if v.getLsbD 2 then false else s.status.lost } }

/-- 10_state.md R31, R35, R46, R47, R48, 60_exceptions.md R410: the words the read-only registers read. -/
def Obligations.ReadOnlyRegisterWords : Prop :=
  ∀ s : State,
    readRegister .id s = some 0x4443463737000007 ∧
    (∃ w, readRegister .status s = some w ∧ w.getLsbD 0 = s.status.busy ∧ w.getLsbD 1 = s.status.err ∧
      w.getLsbD 2 = s.status.lost ∧ w.getLsbD 3 = false ∧ (∀ i, 8 ≤ i → w.getLsbD i = false) ∧
      w.extractLsb' 4 4 =
        match s.status.ecode with
        | none => 0#4
        | some .illegal => 1#4
        | some .uninit => 2#4
        | some .range => 3#4
        | some .format => 4#4
        | some .unsupported => 5#4
        | some .noframe => 6#4
        | some .config => 7#4) ∧
    (∃ w, readRegister .frameTag s = some w ∧ w.getLsbD 7 = s.frameTag.present ∧
      (∀ i, 3 ≤ i → i ≠ 7 → w.getLsbD i = false) ∧
      w.extractLsb' 0 3 =
        match s.frameTag.std with
        | .dcf77 => 0#3
        | .wwvb => 1#3
        | .jjy => 2#3
        | .bpc => 3#3) ∧
    readRegister .pcmLen s = some s.pcmLen ∧
    (s.frameLoWritten = true →
      ∃ w, readRegister .frameLo s = some w ∧ ∀ i, i < 64 → w.getLsbD i = s.frame.getLsbD i) ∧
    (s.frameHiWritten = true →
      ∃ w, readRegister .frameHi s = some w ∧ ∀ i, i < 64 → w.getLsbD i = s.frame.getLsbD (64 + i)) ∧
    (s.res0.written = true → readRegister .res0 s = some s.res0.value) ∧
    (s.res1.written = true → readRegister .res1 s = some s.res1.value)

/-- 20_memory.md R75: a PCM read while no RENDER runs, and the reads that are bus errors. -/
def Obligations.PcmReadIsLittleEndian : Prop :=
  ∀ (s : State) (a n : Nat) (seesNew : BitVec 8),
    ((n = 1 ∨ n = 2 ∨ n = 4 ∨ n = 8) → a + n ≤ s.params.pcmBytes →
      (s.status.busy = true → decode s.cmd.value ≠ .ok .render) →
      (∀ i, i < n → (pcmByte s.pcm (a + i)).isSome = true) →
      ∃ v : Word, hostAccess (.readPcm a n seesNew) s = .next { s with readData := some v } ∧
        (∀ i, i < n → pcmByte s.pcm (a + i) = some (v.extractLsb' (8 * i) 8)) ∧ v.toNat < 2 ^ (8 * n)) ∧
    (¬(n = 1 ∨ n = 2 ∨ n = 4 ∨ n = 8) ∨ s.params.pcmBytes < a + n →
      hostAccess (.readPcm a n seesNew) s = .refused (.busErrorPcm a n))

/-- 20_memory.md R76, 93_implementation_defined.md U2: a PCM read that covers an unwritten byte faults, and names the
first one it covers (notes/assumptions/5). -/
def Obligations.UnwrittenPcmReadFaults : Prop :=
  ∀ (s : State) (a n i : Nat) (seesNew : BitVec 8),
    (n = 1 ∨ n = 2 ∨ n = 4 ∨ n = 8) → a + n ≤ s.params.pcmBytes →
    (s.status.busy = true → decode s.cmd.value ≠ .ok .render) →
    i < n → pcmByte s.pcm (a + i) = none →
    ∃ j, j < n ∧ pcmByte s.pcm (a + j) = none ∧ (∀ k, k < j → (pcmByte s.pcm (a + k)).isSome = true) ∧
      hostAccess (.readPcm a n seesNew) s = .fault (.unwrittenPcm (a + j))

/-- 70_reset_and_hazards.md R446, 93_implementation_defined.md U2, U3: each byte of a PCM read during a RENDER is its value
before the RENDER or its value after it, by a choice of its own (the choice's form is notes/assumptions/6); where a byte
seen is unwritten, the first RENDER's old bytes for one, the read faults and names the first such byte. -/
def Obligations.PcmReadDuringRender : Prop :=
  ∀ (s t : State) (a n : Nat) (seesNew : BitVec 8),
    s.status.busy = true → decode s.cmd.value = .ok .render → exec .render s = .next t →
    (n = 1 ∨ n = 2 ∨ n = 4 ∨ n = 8) → a + n ≤ s.params.pcmBytes →
    let seen : Nat → Option Byte := fun i => if seesNew.getLsbD i then pcmByte t.pcm (a + i) else pcmByte s.pcm (a + i)
    ((∀ i, i < n → (seen i).isSome = true) →
      ∃ v : Word, hostAccess (.readPcm a n seesNew) s = .next { s with readData := some v } ∧
        (∀ i, i < n → some (v.extractLsb' (8 * i) 8) = seen i) ∧ v.toNat < 2 ^ (8 * n)) ∧
    (∀ j, j < n → seen j = none → (∀ k, k < j → (seen k).isSome = true) →
      hostAccess (.readPcm a n seesNew) s = .fault (.unwrittenPcm (a + j)))

/-- 20_memory.md R83, 60_exceptions.md R428; the event list is the model's (notes/assumptions/1, 16 and 17): what a step
does, that a running command's end is the meaning of the decoded word, and that a well-formed command's word placed by
withFetchWord is what the very next step runs. -/
def Obligations.StepRunsDecodedCommand : Prop :=
  ∀ (s : State) (rest : List Event) (op : HostOp) (i : Instr),
    (s.events = [] → s.status.busy = true → decode s.cmd.value = .ok i → step s = exec i s) ∧
    (s.events = .commandEnd :: rest → s.status.busy = true → decode s.cmd.value = .ok i →
      step s = exec i { s with events := rest }) ∧
    (s.events = .host op :: rest → step s = hostAccess op { s with events := rest }) ∧
    (s.events = [] → s.status.busy = false → step s = .next s) ∧
    (s.events = .commandEnd :: rest → s.status.busy = false → step s = .next { s with events := rest }) ∧
    (WellFormed i →
      step (s.withFetchWord 64 (encode i).toNat) =
        exec i { s with cmd := ⟨encode i, true⟩, status := { s.status with busy := true }, events := [] })

/-- 30_encoding.md R108, 60_exceptions.md R413: the decoder refuses exactly the words of R108's seven items, and a running
command with such a word ends with ILLEGAL and changes nothing but STATUS. That it ends at a listed command end, or where
no event is left, is the model's own (notes/assumptions/1 and 17). -/
def Obligations.IllegalWordsEndIllegal : Prop :=
  (∀ w : Word, IllegalWord w ↔ ∃ e, decode w = .error e) ∧
    ∀ (s : State) (rest : List Event), s.status.busy = true → IllegalWord s.cmd.value →
      (s.events = [] → step s = .next (s.failed .illegal)) ∧
      (s.events = .commandEnd :: rest → step s = .next (({ s with events := rest } : State).failed .illegal))

/-- 30_encoding.md R100, R107 and R109: each well-formed command has one word and each legal word is one command's. -/
def Obligations.DecodeEncodeAgree : Prop :=
  (∀ i : Instr, WellFormed i → decode (encode i) = .ok i) ∧
    ∀ (w : Word) (i : Instr), decode w = .ok i → WellFormed i ∧ encode i = w

/-- 30_encoding.md R100, R102 to R104, R107: words written out from the tables. -/
def Obligations.SampleWordsDecode : Prop :=
  decode 0x0 = .ok .nop ∧ decode 0x808 = .ok (.setbits true) ∧ decode 0x310 = .ok .recEncodeBpc ∧
    decode 0x811 = .ok (.recLoadDcf77 true) ∧ decode 0x130013 = .ok (.recField 0x13) ∧ decode 0x22 = .ok .sample ∧
    decode 0x30 = .ok .render

/-- 10_state.md R37, R46, R48, 41_records_common.md R186: every command ends, and what it leaves unchanged whatever it is:
the operand and configuration registers, CMD, LOST, the frame but in REC_ENCODE and REC_LOAD, the PCM memory and PCM_LEN
but in RENDER, and what is no part of the block. -/
def Obligations.CommandFrame : Prop :=
  ∀ (i : Instr) (s : State), ∃ t, exec i s = .next t ∧
    t.status.busy = false ∧ t.status.lost = s.status.lost ∧ t.status.err = t.status.ecode.isSome ∧
    t.cmd = s.cmd ∧ t.opa = s.opa ∧ t.opb = s.opb ∧ t.opc = s.opc ∧ t.opd = s.opd ∧ t.tin0 = s.tin0 ∧ t.tin1 = s.tin1 ∧
    t.rate = s.rate ∧ t.freq = s.freq ∧ t.shape = s.shape ∧ t.depth = s.depth ∧ t.startSec = s.startSec ∧
    t.params = s.params ∧ t.events = s.events ∧ t.readData = s.readData ∧
    t.resets = s.resets ∧
    (writesFrame i = false →
      t.frame = s.frame ∧ t.frameTag = s.frameTag ∧ t.frameLoWritten = s.frameLoWritten ∧
        t.frameHiWritten = s.frameHiWritten) ∧
    (i ≠ .render → t.pcmLen = s.pcmLen ∧ ∀ a, pcmByte t.pcm a = pcmByte s.pcm a)

/-- 41_records_common.md R186: FRAME and FRAME_TAG change only on a reset and on a successful REC_ENCODE or REC_LOAD, and
then both are replaced whole. -/
def Obligations.FrameChangesOnlyByEncodeOrLoad : Prop :=
  ∀ (s t : State), step s = .next t → (t.frame ≠ s.frame ∨ t.frameTag ≠ s.frameTag) →
    (∃ rest, s.events = .reset :: rest ∧ t.frameTag = ⟨.dcf77, false⟩ ∧ t.frameLoWritten = false ∧
      t.frameHiWritten = false) ∨
    ∃ i std f, s.status.busy = true ∧ decode s.cmd.value = .ok i ∧ writesFrame i = true ∧
      t = ({ s with events := t.events } : State).recorded std f

/-- 60_exceptions.md R412: a command that ends with an error changes STATUS alone. -/
def Obligations.ErrorEndIsPrecise : Prop :=
  ∀ (i : Instr) (s t : State), exec i s = .next t → t.status.err = true → ∃ e, t = s.failed e

/-- 60_exceptions.md R411, 10_state.md R45: the successful end, and who writes RES0 and RES1: a command that succeeds and is
not NOP ends in the same state whatever RES0 and RES1 held before. -/
def Obligations.SuccessfulEnd : Prop :=
  ∀ (i : Instr) (s t : State), exec i s = .next t →
    (t.status.err = false →
      t.status = { busy := false, err := false, lost := s.status.lost, ecode := none } ∧
        (i ≠ .nop → t.res0.written = true ∧ t.res1.written = true ∧
          ∀ r0 r1 : Reg, exec i { s with res0 := r0, res1 := r1 } = .next t)) ∧
    (t.status.err = true ∨ i = .nop → t.res0 = s.res0 ∧ t.res1 = s.res1)

/-- 10_state.md R33, R47, 60_exceptions.md R413, 70_reset_and_hazards.md R443: a command issued too early is harmless: one
that reads an unwritten RW register ends with UNINIT, before any other check of its own rule, and then one that needs a
frame ends with NOFRAME without one. -/
def Obligations.EarlyCommandsEndHarmlessly : Prop :=
  ∀ (i : Instr) (s : State), WellFormed i →
    (¬OperandsWritten i s → exec i s = .next (s.failed .uninit)) ∧
    (OperandsWritten i s → needsFrame i = true → s.frameTag.present = false →
      exec i s = .next (s.failed .noframe))

/-- 40_bitcodec.md R130: NOP ends the command and writes no register. -/
def Obligations.NopEndsTheCommand : Prop :=
  ∀ s : State,
    exec .nop s =
      .next { s with status := { busy := false, err := false, lost := s.status.lost, ecode := none } }

/-- 40_bitcodec.md R131. -/
def Obligations.BcdEncResult : Prop :=
  ∀ s : State,
    (¬OperandsWritten .bcdEnc s → exec .bcdEnc s = .next (s.failed .uninit)) ∧
    (OperandsWritten .bcdEnc s →
    (s.opa.value.toNat ≤ 255 →
      exec .bcdEnc s =
        .next (s.succeeded
          (BitVec.ofNat 64 (256 * (s.opa.value.toNat / 100) + 16 * (s.opa.value.toNat / 10 % 10) + s.opa.value.toNat % 10))
          0)) ∧
    (255 < s.opa.value.toNat → exec .bcdEnc s = .next (s.failed .range)))

/-- 40_bitcodec.md R132, with its checks in their order. -/
def Obligations.BcdDecResult : Prop :=
  ∀ (s : State) (d0 d1 d2 : Nat),
    (¬OperandsWritten .bcdDec s → exec .bcdDec s = .next (s.failed .uninit)) ∧
    (OperandsWritten .bcdDec s →
    (2 ^ 12 ≤ s.opa.value.toNat → exec .bcdDec s = .next (s.failed .range)) ∧
    (d0 < 16 → d1 < 16 → d2 < 16 → s.opa.value.toNat = d0 + 16 * d1 + 256 * d2 →
      (9 < d0 ∨ 9 < d1 ∨ 9 < d2 → exec .bcdDec s = .next (s.failed .format)) ∧
      (d0 ≤ 9 → d1 ≤ 9 → d2 ≤ 9 →
        (d0 + 10 * d1 + 100 * d2 ≤ 255 →
          exec .bcdDec s = .next (s.succeeded (BitVec.ofNat 64 (d0 + 10 * d1 + 100 * d2)) 0)) ∧
        (255 < d0 + 10 * d1 + 100 * d2 → exec .bcdDec s = .next (s.failed .range)))))

/-- 40_bitcodec.md R133. -/
def Obligations.Bcd5EncResult : Prop :=
  ∀ s : State,
    (¬OperandsWritten .bcd5Enc s → exec .bcd5Enc s = .next (s.failed .uninit)) ∧
    (OperandsWritten .bcd5Enc s →
    (s.opa.value.toNat ≤ 999 →
      exec .bcd5Enc s =
        .next (s.succeeded
          (BitVec.ofNat 64 (1024 * (s.opa.value.toNat / 100) + 32 * (s.opa.value.toNat / 10 % 10) + s.opa.value.toNat % 10))
          0)) ∧
    (999 < s.opa.value.toNat → exec .bcd5Enc s = .next (s.failed .range)))

/-- 40_bitcodec.md R135: a 5-bit group over 9 is a set pad bit or a digit over 9. -/
def Obligations.Bcd5DecResult : Prop :=
  ∀ (s : State) (g0 g1 g2 : Nat),
    (¬OperandsWritten .bcd5Dec s → exec .bcd5Dec s = .next (s.failed .uninit)) ∧
    (OperandsWritten .bcd5Dec s →
    (2 ^ 15 ≤ s.opa.value.toNat → exec .bcd5Dec s = .next (s.failed .range)) ∧
    (g0 < 32 → g1 < 32 → g2 < 32 → s.opa.value.toNat = g0 + 32 * g1 + 1024 * g2 →
      (9 < g0 ∨ 9 < g1 ∨ 9 < g2 → exec .bcd5Dec s = .next (s.failed .format)) ∧
      (g0 ≤ 9 → g1 ≤ 9 → g2 ≤ 9 →
        exec .bcd5Dec s = .next (s.succeeded (BitVec.ofNat 64 (g0 + 10 * g1 + 100 * g2)) 0))))

/-- 40_bitcodec.md R136, R137, bit by bit. -/
def Obligations.ReverseResult : Prop :=
  ∀ s : State,
    (¬OperandsWritten .reverse s → exec .reverse s = .next (s.failed .uninit)) ∧
    (OperandsWritten .reverse s →
    (s.opb.value.toNat ≤ 64 →
      ∃ r, exec .reverse s = .next (s.succeeded r 0) ∧
        ∀ i, r.getLsbD i =
          (decide (i < s.opb.value.toNat) && s.opa.value.getLsbD (s.opb.value.toNat - 1 - i))) ∧
    (64 < s.opb.value.toNat → exec .reverse s = .next (s.failed .range)))

/-- 40_bitcodec.md R138, R139: with the parity bit, the number of 1 bits of the range is even. -/
def Obligations.ParityResult : Prop :=
  ∀ s : State,
    (¬OperandsWritten .parity s → exec .parity s = .next (s.failed .uninit)) ∧
    (OperandsWritten .parity s →
    (s.opb.value.toNat ≤ s.opc.value.toNat → s.opc.value.toNat ≤ 64 →
      ∃ b : Bool, exec .parity s = .next (s.succeeded (if b then 1 else 0) 0) ∧
        (onesIn s.opa.value.toNat s.opb.value.toNat s.opc.value.toNat + b.toNat) % 2 = 0) ∧
    (s.opc.value.toNat < s.opb.value.toNat ∨ 64 < s.opc.value.toNat → exec .parity s = .next (s.failed .range)))

/-- 40_bitcodec.md R140 to R142, bit by bit: a legal mask of width w is 2^w - 1. -/
def Obligations.BitsResult : Prop :=
  ∀ s : State,
    (¬OperandsWritten .bits s → exec .bits s = .next (s.failed .uninit)) ∧
    (OperandsWritten .bits s →
    (∀ w, 1 ≤ w → s.opc.value.toNat = 2 ^ w - 1 → s.opb.value.toNat + w ≤ 64 →
      ∃ r, exec .bits s = .next (s.succeeded r 0) ∧
        ∀ i, r.getLsbD i = (decide (i < w) && s.opa.value.getLsbD (s.opb.value.toNat + (w - 1 - i)))) ∧
    ((¬∃ w, 1 ≤ w ∧ s.opc.value.toNat = 2 ^ w - 1 ∧ s.opb.value.toNat + w ≤ 64) →
      exec .bits s = .next (s.failed .range)))

/-- 40_bitcodec.md R140, R143 and R144, bit by bit. -/
def Obligations.SetbitsResult : Prop :=
  ∀ (s : State) (msb : Bool),
    (¬OperandsWritten (.setbits msb) s → exec (.setbits msb) s = .next (s.failed .uninit)) ∧
    (OperandsWritten (.setbits msb) s →
    (∀ w, 1 ≤ w → s.opd.value.toNat = 2 ^ w - 1 → s.opc.value.toNat + w ≤ 64 →
      s.opb.value.toNat ≤ s.opd.value.toNat →
      ∃ r, exec (.setbits msb) s = .next (s.succeeded r 0) ∧
        (∀ j, j < w → r.getLsbD (s.opc.value.toNat + j) = s.opb.value.getLsbD (if msb then w - 1 - j else j)) ∧
        (∀ i, i < s.opc.value.toNat ∨ s.opc.value.toNat + w ≤ i → r.getLsbD i = s.opa.value.getLsbD i)) ∧
    ((¬∃ w, 1 ≤ w ∧ s.opd.value.toNat = 2 ^ w - 1 ∧ s.opc.value.toNat + w ≤ 64) ∨
      s.opd.value.toNat < s.opb.value.toNat → exec (.setbits msb) s = .next (s.failed .range)))

/-- 40_bitcodec.md R147, over the commands: each decode of an encode, and REVERSE twice, gives the value back. -/
def Obligations.CodecRoundTrips : Prop :=
  ∀ (s : State) (v n : Word),
    (v.toNat ≤ 255 → ∃ t u, exec .bcdEnc { s with opa := ⟨v, true⟩ } = .next t ∧
      exec .bcdDec { t with opa := t.res0 } = .next u ∧ u.status.err = false ∧ u.res0.value = v) ∧
    (v.toNat ≤ 999 → ∃ t u, exec .bcd5Enc { s with opa := ⟨v, true⟩ } = .next t ∧
      exec .bcd5Dec { t with opa := t.res0 } = .next u ∧ u.status.err = false ∧ u.res0.value = v) ∧
    (n.toNat ≤ 64 → v.toNat < 2 ^ n.toNat →
      ∃ t u, exec .reverse { s with opa := ⟨v, true⟩, opb := ⟨n, true⟩ } = .next t ∧
        exec .reverse { t with opa := t.res0 } = .next u ∧ u.status.err = false ∧ u.res0.value = v)

/-- 10_state.md R38, 41_records_common.md R173, R178: REC_ENCODE on legal time inputs stores the record of its standard, and
on any other ends with RANGE. The four records are laid out by the four statements after this one. -/
def Obligations.RecEncodeChecksItsInputs : Prop :=
  ∀ (std : Std) (s : State),
    (¬OperandsWritten (recEncodeInstr std) s → exec (recEncodeInstr std) s = .next (s.failed .uninit)) ∧
    (OperandsWritten (recEncodeInstr std) s →
    (TimeLegal std s.tin0.value s.tin1.value →
      exec (recEncodeInstr std) s =
        .next (s.recorded std
          (encodeRecord std (yearBits s.tin0.value) (monthBits s.tin0.value) (dayBits s.tin0.value)
            (hourBits s.tin0.value) (minuteBits s.tin0.value) s.tin1.value))) ∧
    (¬TimeLegal std s.tin0.value s.tin1.value → exec (recEncodeInstr std) s = .next (s.failed .range)))

/-- 42_dcf77.md R200: every bit of the frame REC_ENCODE.DCF77 makes. -/
def Obligations.Dcf77Layout : Prop :=
  ∀ (s : State) (y mo d h m : Nat), OperandsWritten .recEncodeDcf77 s → TimeLegal .dcf77 s.tin0.value s.tin1.value →
    yearBits s.tin0.value = y → monthBits s.tin0.value = mo → dayBits s.tin0.value = d → hourBits s.tin0.value = h →
    minuteBits s.tin0.value = m →
    ∃ f, exec .recEncodeDcf77 s = .next (s.recorded .dcf77 f) ∧
      (∀ i, i ≤ 14 → f.getLsbD i = false) ∧
      (∀ i, i < 5 → f.getLsbD (15 + i) = s.tin1.value.getLsbD i) ∧
      f.getLsbD 20 = true ∧
      lsbValue f 21 7 = bcdOf m ∧ f.getLsbD 28 = evenParityBit f.toNat 21 28 ∧
      lsbValue f 29 6 = bcdOf h ∧ f.getLsbD 35 = evenParityBit f.toNat 29 35 ∧
      lsbValue f 36 6 = bcdOf d ∧ lsbValue f 42 3 = dowIso y mo d ∧ lsbValue f 45 5 = bcdOf mo ∧
      lsbValue f 50 8 = bcdOf (y % 100) ∧ f.getLsbD 58 = evenParityBit f.toNat 36 58 ∧
      ∀ i, 59 ≤ i → f.getLsbD i = false

/-- 43_wwvb.md R230: every bit of the frame REC_ENCODE.WWVB makes. -/
def Obligations.WwvbLayout : Prop :=
  ∀ (s : State) (y mo d h m : Nat), OperandsWritten .recEncodeWwvb s → TimeLegal .wwvb s.tin0.value s.tin1.value →
    yearBits s.tin0.value = y → monthBits s.tin0.value = mo → dayBits s.tin0.value = d → hourBits s.tin0.value = h →
    minuteBits s.tin0.value = m →
    ∃ f, exec .recEncodeWwvb s = .next (s.recorded .wwvb f) ∧
      (∀ i ∈ [0, 9, 10, 11, 19, 20, 21, 34, 35, 39, 44, 54], f.getLsbD i = false) ∧
      msbValue f 1 8 = bcd5Of m ∧ msbValue f 12 7 = bcd5Of h ∧ msbValue f 22 12 = bcd5Of (dayOfYear y mo d) ∧
      msbValue f 36 3 = (if s.tin1.value.getLsbD 8 then 2 else 5) ∧
      msbValue f 40 4 = s.tin1.value.toNat / 2 ^ 12 % 16 ∧
      msbValue f 45 9 = bcd5Of (y % 100) ∧ f.getLsbD 55 = isLeap y ∧
      f.getLsbD 56 = s.tin1.value.getLsbD 16 ∧ msbValue f 57 2 = usDst y mo d ∧
      ∀ i, 59 ≤ i → f.getLsbD i = false

/-- 44_jjy.md R260, R261: every bit of the frame REC_ENCODE.JJY makes, in both kinds of minute. -/
def Obligations.JjyLayout : Prop :=
  ∀ (s : State) (y mo d h m : Nat), OperandsWritten .recEncodeJjy s → TimeLegal .jjy s.tin0.value s.tin1.value →
    yearBits s.tin0.value = y → monthBits s.tin0.value = mo → dayBits s.tin0.value = d → hourBits s.tin0.value = h →
    minuteBits s.tin0.value = m →
    ∃ f, exec .recEncodeJjy s = .next (s.recorded .jjy f) ∧
      (∀ i ∈ [0, 9, 10, 11, 19, 20, 21, 34, 35, 38, 39, 40, 49], f.getLsbD i = false) ∧
      msbValue f 1 8 = bcd5Of m ∧ msbValue f 12 7 = bcd5Of h ∧ msbValue f 22 12 = bcd5Of (dayOfYear y mo d) ∧
      f.getLsbD 36 = evenParityBit f.toNat 12 19 ∧ f.getLsbD 37 = evenParityBit f.toNat 1 9 ∧
      (m ≠ 15 → m ≠ 45 →
        msbValue f 41 8 = bcdOf (y % 100) ∧ msbValue f 50 3 = dowSun0 y mo d ∧
          f.getLsbD 53 = s.tin1.value.getLsbD 24 ∧ f.getLsbD 54 = s.tin1.value.getLsbD 25 ∧ f.getLsbD 55 = false) ∧
      (m = 15 ∨ m = 45 →
        (∀ i, 41 ≤ i → i ≤ 48 → f.getLsbD i = false) ∧ msbValue f 50 6 = s.tin1.value.toNat / 2 ^ 32 % 64) ∧
      ∀ i, 56 ≤ i → f.getLsbD i = false

/-- 45_bpc.md R290 to R293: every symbol of the frame REC_ENCODE.BPC makes. -/
def Obligations.BpcLayout : Prop :=
  ∀ (s : State) (y mo d h m : Nat), OperandsWritten .recEncodeBpc s → TimeLegal .bpc s.tin0.value s.tin1.value →
    yearBits s.tin0.value = y → monthBits s.tin0.value = mo → dayBits s.tin0.value = d → hourBits s.tin0.value = h →
    minuteBits s.tin0.value = m →
    ∃ f, exec .recEncodeBpc s = .next (s.recorded .bpc f) ∧
      (∀ k, k < 3 →
        symValue f (20 * k) = k ∧ symValue f (20 * k + 1) = 0 ∧ symValue f (20 * k + 2) = 0 ∧
        symField f (20 * k + 3) 2 = h % 12 ∧ symField f (20 * k + 5) 3 = m ∧
        symField f (20 * k + 8) 2 = dowIso y mo d ∧
        symValue f (20 * k + 10) =
          2 * (if 12 ≤ h then 1 else 0) + (evenParityBit f.toNat (40 * k + 2) (40 * k + 20)).toNat ∧
        symField f (20 * k + 11) 3 = d ∧ symField f (20 * k + 14) 2 = mo ∧
        symField f (20 * k + 16) 3 = y % 100 % 64 ∧
        symValue f (20 * k + 19) =
          2 * (y % 100 / 64) + (evenParityBit f.toNat (40 * k + 22) (40 * k + 38)).toNat) ∧
      ∀ i, 120 ≤ i → f.getLsbD i = false

/-- 41_records_common.md R178's corner case: REC_VALID is 1 for every frame REC_ENCODE produces. -/
def Obligations.EncodedFramesAreValid : Prop :=
  ∀ (std : Std) (s : State), OperandsWritten (recEncodeInstr std) s → TimeLegal std s.tin0.value s.tin1.value →
    ∃ t, exec (recEncodeInstr std) s = .next t ∧ t.frameTag = ⟨std, true⟩ ∧
      exec .recValid t = .next (t.succeeded 1 0)

/-- 41_records_common.md R184, R185: "decode(encode(fields)) == fields", every field of every standard; a field the record
does not carry is UNSUPPORTED. -/
def Obligations.EncodedFieldsDecode : Prop :=
  ∀ (std : Std) (fld : Field) (s : State), OperandsWritten (recEncodeInstr std) s →
    TimeLegal std s.tin0.value s.tin1.value →
    ∃ t, exec (recEncodeInstr std) s = .next t ∧
      exec (.recField (fieldCode fld)) t =
        match encodedField std (yearBits s.tin0.value) (monthBits s.tin0.value) (dayBits s.tin0.value)
          (hourBits s.tin0.value) (minuteBits s.tin0.value) s.tin1.value fld with
        | some v => .next (t.succeeded (BitVec.ofNat 64 v) 0)
        | none => .next (t.failed .unsupported)

/-- 41_records_common.md R179, bit by bit: REC_LOAD of the 60-bit standards and of BPC. -/
def Obligations.RecLoadResult : Prop :=
  ∀ (s : State) (msb : Bool),
    (∀ i std, (i, std) ∈ [(Instr.recLoadDcf77 msb, Std.dcf77), (.recLoadWwvb msb, .wwvb), (.recLoadJjy msb, .jjy)] →
      (¬OperandsWritten i s → exec i s = .next (s.failed .uninit)) ∧
      (OperandsWritten i s → s.opa.value.toNat < 2 ^ 60 →
        ∃ f, exec i s = .next (s.recorded std f) ∧
          ∀ j, f.getLsbD j = (decide (j < 60) && s.opa.value.getLsbD (if msb then 59 - j else j))) ∧
      (OperandsWritten i s → 2 ^ 60 ≤ s.opa.value.toNat → exec i s = .next (s.failed .range))) ∧
    (¬OperandsWritten (.recLoadBpc msb) s → exec (.recLoadBpc msb) s = .next (s.failed .uninit)) ∧
    (OperandsWritten (.recLoadBpc msb) s →
      (msb = true → exec (.recLoadBpc msb) s = .next (s.failed .unsupported)) ∧
      (msb = false → s.opb.value.toNat < 2 ^ 56 →
        ∃ f, exec (.recLoadBpc msb) s = .next (s.recorded .bpc f) ∧
          ∀ j, f.getLsbD j = if j < 64 then s.opa.value.getLsbD j else s.opb.value.getLsbD (j - 64)) ∧
      (msb = false → 2 ^ 56 ≤ s.opb.value.toNat → exec (.recLoadBpc msb) s = .next (s.failed .range)))

/-- 41_records_common.md R180, bit by bit. -/
def Obligations.RecRawResult : Prop :=
  ∀ (s : State) (msb : Bool), (s.frameTag.present = false → exec (.recRaw msb) s = .next (s.failed .noframe)) ∧
    (s.frameTag.present = true →
    (s.frameTag.std ≠ .bpc →
      ∃ r, exec (.recRaw msb) s = .next (s.succeeded r 0) ∧
        ∀ j, r.getLsbD j = (decide (j < 60) && s.frame.getLsbD (if msb then 59 - j else j))) ∧
    (s.frameTag.std = .bpc → exec (.recRaw msb) s = .next (s.failed .unsupported)))

/-- 41_records_common.md R181, 45_bpc.md R295. -/
def Obligations.RecSymResult : Prop :=
  ∀ s : State, (¬OperandsWritten .recSym s → exec .recSym s = .next (s.failed .uninit)) ∧
    (OperandsWritten .recSym s → s.frameTag.present = false → exec .recSym s = .next (s.failed .noframe)) ∧
    (OperandsWritten .recSym s → s.frameTag.present = true →
    (s.frameTag.std ≠ .bpc → exec .recSym s = .next (s.failed .unsupported)) ∧
    (s.frameTag.std = .bpc → s.opa.value.toNat ≤ 59 →
      exec .recSym s = .next (s.succeeded (BitVec.ofNat 64 (symValue s.frame s.opa.value.toNat)) 0)) ∧
    (s.frameTag.std = .bpc → 59 < s.opa.value.toNat → exec .recSym s = .next (s.failed .range)))

/-- 41_records_common.md R182, R184, 42_dcf77.md R203, 43_wwvb.md R236, 44_jjy.md R265, 45_bpc.md R297: REC_FIELD of every
field on every frame. -/
def Obligations.RecFieldResult : Prop :=
  ∀ (s : State) (fld : Field),
    (s.frameTag.present = false → exec (.recField (fieldCode fld)) s = .next (s.failed .noframe)) ∧
    (s.frameTag.present = true →
    (∀ v, fieldResult s.frameTag.std s.frame fld = .ok v →
      exec (.recField (fieldCode fld)) s = .next (s.succeeded (BitVec.ofNat 64 v) 0)) ∧
    (∀ e, fieldResult s.frameTag.std s.frame fld = .error e →
      exec (.recField (fieldCode fld)) s = .next (s.failed e)))

/-- 41_records_common.md R183, 42_dcf77.md R202, 43_wwvb.md R235, 44_jjy.md R264, 45_bpc.md R296. -/
def Obligations.RecValidResult : Prop :=
  ∀ s : State, (s.frameTag.present = false → exec .recValid s = .next (s.failed .noframe)) ∧
    (s.frameTag.present = true →
    (FrameValid s.frameTag.std s.frame → exec .recValid s = .next (s.succeeded 1 0)) ∧
    (¬FrameValid s.frameTag.std s.frame → exec .recValid s = .next (s.succeeded 0 0)))

/-- 41_records_common.md R174 to R177, R187, 43_wwvb.md R232: the calendar functions agree with counting days. Leap years
and month lengths are as R174 and R175 say; January 1 is day 1; the day after a date is the next weekday and, within the
year, the next day of the year; 1999-10-01 is a Friday, which fixes every weekday (42_dcf77.md R204); `nthSunday` is the
n-th Sunday of its month; and `usDst` is 2 and 1 on the second Sunday of March and the first of November, 3 between them
and 0 elsewhere. -/
def Obligations.CalendarCountsDays : Prop :=
  dowSun0 1999 10 1 = 5 ∧
  ∀ y m d : Nat, 1 ≤ y → 1 ≤ m → m ≤ 12 → 1 ≤ d → d ≤ daysInMonth y m →
    (isLeap y = true ↔ (y % 4 = 0 ∧ y % 100 ≠ 0) ∨ y % 400 = 0) ∧
    daysInMonth y m =
      (if m = 2 then (if isLeap y then 29 else 28) else if m ∈ [4, 6, 9, 11] then 30 else 31) ∧
    dayOfYear y 1 1 = 1 ∧ dowSun0 y m d < 7 ∧ dowIso y m d = (if dowSun0 y m d = 0 then 7 else dowSun0 y m d) ∧
    (d < daysInMonth y m →
      dowSun0 y m (d + 1) = (dowSun0 y m d + 1) % 7 ∧ dayOfYear y m (d + 1) = dayOfYear y m d + 1) ∧
    (d = daysInMonth y m → m < 12 →
      dowSun0 y (m + 1) 1 = (dowSun0 y m d + 1) % 7 ∧ dayOfYear y (m + 1) 1 = dayOfYear y m d + 1) ∧
    (d = daysInMonth y m → m = 12 →
      dowSun0 (y + 1) 1 1 = (dowSun0 y m d + 1) % 7 ∧ dayOfYear y m d = (if isLeap y then 366 else 365)) ∧
    (∀ n, 1 ≤ n →
      dowSun0 y m (nthSunday y m n) = 0 ∧ 7 * (n - 1) < nthSunday y m n ∧ nthSunday y m n ≤ 7 * n) ∧
    (m = 3 ∧ d = nthSunday y 3 2 → usDst y m d = 2) ∧
    (m = 11 ∧ d = nthSunday y 11 1 → usDst y m d = 1) ∧
    ((m = 3 ∧ nthSunday y 3 2 < d) ∨ (3 < m ∧ m < 11) ∨ (m = 11 ∧ d < nthSunday y 11 1) → usDst y m d = 3) ∧
    (m < 3 ∨ (m = 3 ∧ d < nthSunday y 3 2) ∨ (m = 11 ∧ nthSunday y 11 1 < d) ∨ m = 12 → usDst y m d = 0)

/-- 46_envelope.md R320 to R325, R328, R331: SCHEDULE's result, and its checks in their order. -/
def Obligations.ScheduleResult : Prop :=
  ∀ s : State, (¬OperandsWritten .schedule s → exec .schedule s = .next (s.failed .uninit)) ∧
    (OperandsWritten .schedule s → s.frameTag.present = false → exec .schedule s = .next (s.failed .noframe)) ∧
    (OperandsWritten .schedule s → s.frameTag.present = true →
    (s.rate.value.toNat = 0 ∨ 2 ^ 32 ≤ s.rate.value.toNat → exec .schedule s = .next (s.failed .config)) ∧
    (1 ≤ s.rate.value.toNat → s.rate.value.toNat < 2 ^ 32 →
      (59 < s.opa.value.toNat → exec .schedule s = .next (s.failed .range)) ∧
      (s.opa.value.toNat ≤ 59 → FrameUndecodable s.frameTag.std s.frame →
        exec .schedule s = .next (s.failed .format)) ∧
      (s.opa.value.toNat ≤ 59 → ¬FrameUndecodable s.frameTag.std s.frame →
        exec .schedule s =
          .next (s.succeeded
            (BitVec.ofNat 64
              (s.rate.value.toNat * (slotTable s.params s.frameTag.std s.frame s.opa.value.toNat).2 / 1000))
            (BitVec.ofNat 64 (slotTable s.params s.frameTag.std s.frame s.opa.value.toNat).1)))))

/-- 46_envelope.md R321, R320: where the durations are legal, a successful SCHEDULE's prefix is at most the whole second,
and its class code is at most 9. -/
def Obligations.PrefixFitsItsSecond : Prop :=
  ∀ (s t : State), s.params.wf = true → exec .schedule s = .next t → t.status.err = false →
    t.res0.value.toNat ≤ s.rate.value.toNat ∧ t.res1.value.toNat ≤ 9

/-- 46_envelope.md R326, R327, R329, R330, R331: ENVELOPE's result, and its checks in their order. -/
def Obligations.EnvelopeResult : Prop :=
  ∀ s : State, (¬OperandsWritten .envelope s → exec .envelope s = .next (s.failed .uninit)) ∧
    (OperandsWritten .envelope s → s.frameTag.present = false → exec .envelope s = .next (s.failed .noframe)) ∧
    (OperandsWritten .envelope s → s.frameTag.present = true →
    (s.rate.value.toNat = 0 ∨ 2 ^ 32 ≤ s.rate.value.toNat ∨ inUnitInterval s.depth.value = false →
      exec .envelope s = .next (s.failed .config)) ∧
    (1 ≤ s.rate.value.toNat → s.rate.value.toNat < 2 ^ 32 → inUnitInterval s.depth.value = true →
      (59 < s.opa.value.toNat ∨ s.rate.value.toNat ≤ s.opb.value.toNat →
        exec .envelope s = .next (s.failed .range)) ∧
      (s.opa.value.toNat ≤ 59 → s.opb.value.toNat < s.rate.value.toNat →
        (FrameUndecodable s.frameTag.std s.frame → exec .envelope s = .next (s.failed .format)) ∧
        (¬FrameUndecodable s.frameTag.std s.frame →
          exec .envelope s =
            .next (s.succeeded
              (envelopeAmplitude s.params s.frameTag.std s.frame s.rate.value.toNat s.depth.value s.opa.value.toNat
                s.opb.value.toNat)
              0)))))

/-- 47_synth.md R350, R353 to R355, R357: SAMPLE's result, and its checks in their order. -/
def Obligations.SampleResult : Prop :=
  ∀ s : State, (¬OperandsWritten .sample s → exec .sample s = .next (s.failed .uninit)) ∧
    (OperandsWritten .sample s →
    (s.rate.value.toNat = 0 ∨ 2 ^ 32 ≤ s.rate.value.toNat ∨ 2 ^ 32 ≤ s.freq.value.toNat ∨ 2 < s.shape.value.toNat →
      exec .sample s = .next (s.failed .config)) ∧
    (1 ≤ s.rate.value.toNat → s.rate.value.toNat < 2 ^ 32 → s.freq.value.toNat < 2 ^ 32 → s.shape.value.toNat ≤ 2 →
      (2 ^ 53 ≤ s.opa.value.toNat ∨ inUnitInterval s.opb.value = false → exec .sample s = .next (s.failed .range)) ∧
      (s.opa.value.toNat < 2 ^ 53 → inUnitInterval s.opb.value = true →
        exec .sample s =
          .next (s.succeeded
            (BitVec.ofInt 64
              (sampleValue s.params s.shape.value.toNat s.opa.value.toNat s.freq.value.toNat s.opb.value
                s.rate.value.toNat))
            0))))

/-- 47_synth.md R357's corner cases: FREQ = 0 gives 0 for sine and triangle and round(32767.0 * a) for square, whatever
conforming sine and arcsine the block has. -/
def Obligations.SampleAtZeroFrequency : Prop :=
  ∀ s : State, OperandsWritten .sample s → s.freq.value = 0 →
    1 ≤ s.rate.value.toNat → s.rate.value.toNat < 2 ^ 32 → s.shape.value.toNat ≤ 2 →
    s.opa.value.toNat < 2 ^ 53 → inUnitInterval s.opb.value = true →
    exec .sample s =
      .next (s.succeeded
        (if s.shape.value = 1 then BitVec.ofInt 64 (f64RoundToInt (f64Mul f64FullScale s.opb.value)) else 0) 0)

/-- 47_synth.md R356 (derived in the spec): every sample fits 16 signed bits, and sine and triangle are symmetric. -/
def Obligations.SampleRange : Prop :=
  ∀ (s t : State), exec .sample s = .next t → t.status.err = false →
    -32768 ≤ t.res0.value.toInt ∧ t.res0.value.toInt ≤ 32767 ∧
      (s.shape.value ≠ 1 → -32767 ≤ t.res0.value.toInt)

/-- 47_synth.md R352, whatever the parameters choose: the fixed values of SIN64 and ASIN64, |SIN64(x)| <= 1.0 for every
finite x, and, for every argument but a zero and ASIN64's -1.0 and 1.0, the parameter's own result where it is within 1 ulp
of the enclosed real and the enclosed real rounded to nearest otherwise (notes/assumptions/11 and 13; the values at -0.0
are notes/assumptions/23 and are not stated). That the enclosures hold the real sine and arcsine is
EnclosuresHoldTheRealFunctions. -/
def Obligations.TrigFixedValues : Prop :=
  ∀ c : List (Word × Word),
    sin64 c f64Zero = f64Zero ∧ asin64 c f64Zero = f64Zero ∧
    asin64 c f64One = 0x3FF921FB54442D18 ∧ asin64 c 0xBFF0000000000000 = 0xBFF921FB54442D18 ∧
    (∀ x, f64Finite x = true →
      f64Finite (sin64 c x) = true ∧ -1 ≤ f64Rat (sin64 c x) ∧ f64Rat (sin64 c x) ≤ 1) ∧
    ∀ x neg m e, f64Unpack x = .fin neg m e → m ≠ 0 →
      ChosenResult c 1 x (sinEnclosure neg m e) (sin64 c x) ∧
      (|f64Rat x| < 1 →
        f64Finite (asin64 c x) = true ∧ ChosenResult c (f64Rat f64HalfPi) x (asinEnclosure neg m e) (asin64 c x))

/-- 47_synth.md R351: `round(y)` is the floor of y + 1/2 in exact arithmetic. -/
def Obligations.RoundIsFloorOfHalfAbove : Prop :=
  ∀ y : Word, f64Finite y = true → f64RoundToInt y = ⌊f64Rat y + 1 / 2⌋

/-- 00_scope.md R12, R13: each operator is the exact result rounded once, to nearest-even, wherever the result is finite;
the comparison is that of the values; and f64(v) is nearest to v, and exact for v < 2^53. The sign of a product and of a
quotient is that of their operands, and an exact zero difference is +0.0 but for (-0.0) - (+0.0), so 1.0 - 1.0 is 0.0
(46_envelope.md R330). `inUnitInterval` is R43's and R357's "finite with 0.0 <= d <= 1.0". The format itself and the signs
of zeros are notes/assumptions/14. -/
def Obligations.OperatorsRoundToNearestEven : Prop :=
  (∀ a b : Word, f64Finite a = true → f64Finite b = true →
    (f64Finite (f64Mul a b) = true → NearestEven (f64Rat a * f64Rat b) (f64Mul a b)) ∧
    (f64Rat b ≠ 0 → f64Finite (f64Div a b) = true → NearestEven (f64Rat a / f64Rat b) (f64Div a b)) ∧
    (f64Finite (f64Sub a b) = true → NearestEven (f64Rat a - f64Rat b) (f64Sub a b)) ∧
    (f64Mul a b).getLsbD 63 = (a.getLsbD 63 != b.getLsbD 63) ∧
    (f64Rat b ≠ 0 → (f64Div a b).getLsbD 63 = (a.getLsbD 63 != b.getLsbD 63)) ∧
    (f64Rat a = f64Rat b →
      f64Sub a b = if a = 0x8000000000000000 ∧ b = 0 then 0x8000000000000000 else 0) ∧
    (f64Le a b = true ↔ f64Rat a ≤ f64Rat b)) ∧
  (∀ v : Nat, f64Finite (f64OfNat v) = true → NearestEven v (f64OfNat v)) ∧
  (∀ v : Nat, v < 2 ^ 53 → f64Finite (f64OfNat v) = true ∧ f64Rat (f64OfNat v) = v) ∧
  (∀ d : Word, inUnitInterval d = true ↔ f64Finite d = true ∧ 0 ≤ f64Rat d ∧ f64Rat d ≤ 1)

/-- 48_render.md R380 to R383: RENDER on a legal configuration writes PCM_LEN, RES0, RES1 and bytes 0 to L-1, sample j in
bytes 2j and 2j+1 with its low byte first, and changes nothing else but STATUS; a byte at or above L reads as before. That
FREQ is legal by membership of the list alone is notes/assumptions/22. -/
def Obligations.RenderResult : Prop :=
  ∀ (s : State) (n : Nat), OperandsWritten .render s → s.frameTag.present = true → RenderConfigLegal s →
    ¬FrameUndecodable s.frameTag.std s.frame → n = s.rate.value.toNat * (60 - s.startSec.value.toNat) →
    ∃ m, exec .render s =
        .next { s.succeeded (BitVec.ofNat 64 n) (BitVec.ofNat 64 (2 * n)) with
          pcm := m, pcmLen := BitVec.ofNat 64 (2 * n) } ∧
      (∀ j, j < n → pcmByte m (2 * j) = some ((bufferSample s j).extractLsb' 0 8) ∧
        pcmByte m (2 * j + 1) = some ((bufferSample s j).extractLsb' 8 8)) ∧
      ∀ a, 2 * n ≤ a → pcmByte m a = pcmByte s.pcm a

/-- 48_render.md R380, 10_state.md R41: RENDER's errors, in their order. That FREQ is legal by membership of the list alone
is notes/assumptions/22. -/
def Obligations.RenderErrors : Prop :=
  ∀ s : State, (¬OperandsWritten .render s → exec .render s = .next (s.failed .uninit)) ∧
    (OperandsWritten .render s → s.frameTag.present = false → exec .render s = .next (s.failed .noframe)) ∧
    (OperandsWritten .render s → s.frameTag.present = true →
    (¬RenderConfigLegal s → exec .render s = .next (s.failed .config)) ∧
    (RenderConfigLegal s → FrameUndecodable s.frameTag.std s.frame → exec .render s = .next (s.failed .format)))

/-- 48_render.md R384 (derived in the spec): bytes 2j and 2j+1 of a successful RENDER are the low 16 bits of RES0 of
ENVELOPE then SAMPLE on the same frame and configuration. FREQ is within R41's own bound. -/
def Obligations.RenderEqualsEnvelopeThenSample : Prop :=
  ∀ (s t : State) (j : Nat), exec .render s = .next t → t.status.err = false → s.freq.value.toNat < 2 ^ 32 →
    j < s.rate.value.toNat * (60 - s.startSec.value.toNat) →
    ∃ e v,
      exec .envelope
          { s with
            opa := ⟨BitVec.ofNat 64 (s.startSec.value.toNat + j / s.rate.value.toNat), true⟩
            opb := ⟨BitVec.ofNat 64 (j % s.rate.value.toNat), true⟩ } = .next e ∧
      e.status.err = false ∧
      exec .sample
          { e with
            opa := ⟨BitVec.ofNat 64 (runningIndex s.params s.rate.value.toNat s.startSec.value.toNat j), true⟩
            opb := e.res0 } = .next v ∧
      v.status.err = false ∧
      pcmByte t.pcm (2 * j) = some (v.res0.value.extractLsb' 0 8) ∧
      pcmByte t.pcm (2 * j + 1) = some (v.res0.value.extractLsb' 8 8)

/-- notes/assumptions/18, 48_render.md R380, 20_memory.md R74: the memory RENDER leaves is that of its loop of sample
writes, in increasing j, on any memory in canonical form. -/
def Obligations.RenderIsItsLoopOfWrites : Prop :=
  ∀ (p : Params) (job : RenderJob) (m : List Host.Cell), Memory.wf m = true →
    renderPcm p job m =
      (List.range (renderCount job.rate job.startSec)).foldl
        (fun acc j => pcmWrite16 acc (2 * j) (renderSample p job j)) m

/-- The invariant of the block holds after reset. That FRAME holds 0 there is notes/assumptions/3 (the model's choice); of it
the invariant asks FRAME[127:120] = 0 alone, which R46 says is always so. -/
def Obligations.ResetMeetsInvariant : Prop := State.reset.Inv

/-- Every step that answers a next state keeps the invariant: the canonical PCM memory within its size and written over
the whole current buffer, ERR = 1 iff ECODE is not 0 (10_state.md R35), the width of a present frame and FRAME[127:120] = 0
(R46), and the flags that are written together (R45, 41_records_common.md R186). In the reset step FRAME[127:120] = 0 holds
by R46's "always" and, in the model, by the 0 of notes/assumptions/3. -/
def Obligations.StepKeepsInvariant : Prop :=
  ∀ (s t : State), s.Inv → step s = .next t → t.Inv

/-- 47_synth.md R352: the enclosures SIN64 and ASIN64 are chosen from hold the real sine of every finite argument but a
zero and the real arcsine of every argument in (-1, 1) but a zero. That they do is the model's claim
(notes/assumptions/13). -/
def Obligations.EnclosuresHoldTheRealFunctions : Prop :=
  ∀ (x : Word) (neg : Bool) (m : Nat) (e : Int), f64Unpack x = .fin neg m e → m ≠ 0 →
    (let v := sinEnclosure neg m e
     let y : ℝ := Real.sin ((f64Rat x : ℚ) : ℝ)
     (v.lo : ℝ) ≤ |y| * 2 ^ v.k ∧ |y| * 2 ^ v.k ≤ v.hi ∧ (0 < v.lo → (v.neg = true ↔ y < 0))) ∧
    (|f64Rat x| < 1 →
      let v := asinEnclosure neg m e
      let y : ℝ := Real.arcsin ((f64Rat x : ℚ) : ℝ)
      (v.lo : ℝ) ≤ |y| * 2 ^ v.k ∧ |y| * 2 ^ v.k ≤ v.hi ∧ (v.neg = true ↔ y < 0))
end

