-- ==== Sys2Proof/Laws/State.lean ====
section
/-! SUPPORT. One lemma per field per named update of State, so that no proof unfolds a record update; and the fields of
the two STATUS ends. -/

namespace Sys2Proof.Machine

@[simp] theorem setResults_cmd (s : State) (r0 r1 : Word) : (s.setResults r0 r1).cmd = s.cmd := rfl
@[simp] theorem setResults_status (s : State) (r0 r1 : Word) : (s.setResults r0 r1).status = s.status := rfl
@[simp] theorem setResults_opa (s : State) (r0 r1 : Word) : (s.setResults r0 r1).opa = s.opa := rfl
@[simp] theorem setResults_opb (s : State) (r0 r1 : Word) : (s.setResults r0 r1).opb = s.opb := rfl
@[simp] theorem setResults_opc (s : State) (r0 r1 : Word) : (s.setResults r0 r1).opc = s.opc := rfl
@[simp] theorem setResults_opd (s : State) (r0 r1 : Word) : (s.setResults r0 r1).opd = s.opd := rfl
@[simp] theorem setResults_tin0 (s : State) (r0 r1 : Word) : (s.setResults r0 r1).tin0 = s.tin0 := rfl
@[simp] theorem setResults_tin1 (s : State) (r0 r1 : Word) : (s.setResults r0 r1).tin1 = s.tin1 := rfl
@[simp] theorem setResults_rate (s : State) (r0 r1 : Word) : (s.setResults r0 r1).rate = s.rate := rfl
@[simp] theorem setResults_freq (s : State) (r0 r1 : Word) : (s.setResults r0 r1).freq = s.freq := rfl
@[simp] theorem setResults_shape (s : State) (r0 r1 : Word) : (s.setResults r0 r1).shape = s.shape := rfl
@[simp] theorem setResults_depth (s : State) (r0 r1 : Word) : (s.setResults r0 r1).depth = s.depth := rfl
@[simp] theorem setResults_startSec (s : State) (r0 r1 : Word) : (s.setResults r0 r1).startSec = s.startSec := rfl
@[simp] theorem setResults_res0 (s : State) (r0 r1 : Word) : (s.setResults r0 r1).res0 = Reg.store r0 := rfl
@[simp] theorem setResults_res1 (s : State) (r0 r1 : Word) : (s.setResults r0 r1).res1 = Reg.store r1 := rfl
@[simp] theorem setResults_frame (s : State) (r0 r1 : Word) : (s.setResults r0 r1).frame = s.frame := rfl
@[simp] theorem setResults_frameLoWritten (s : State) (r0 r1 : Word) : (s.setResults r0 r1).frameLoWritten = s.frameLoWritten := rfl
@[simp] theorem setResults_frameHiWritten (s : State) (r0 r1 : Word) : (s.setResults r0 r1).frameHiWritten = s.frameHiWritten := rfl
@[simp] theorem setResults_frameTag (s : State) (r0 r1 : Word) : (s.setResults r0 r1).frameTag = s.frameTag := rfl
@[simp] theorem setResults_pcmLen (s : State) (r0 r1 : Word) : (s.setResults r0 r1).pcmLen = s.pcmLen := rfl
@[simp] theorem setResults_pcm (s : State) (r0 r1 : Word) : (s.setResults r0 r1).pcm = s.pcm := rfl
@[simp] theorem setResults_params (s : State) (r0 r1 : Word) : (s.setResults r0 r1).params = s.params := rfl
@[simp] theorem setResults_events (s : State) (r0 r1 : Word) : (s.setResults r0 r1).events = s.events := rfl
@[simp] theorem setResults_readData (s : State) (r0 r1 : Word) : (s.setResults r0 r1).readData = s.readData := rfl
@[simp] theorem setResults_resets (s : State) (r0 r1 : Word) : (s.setResults r0 r1).resets = s.resets := rfl

@[simp] theorem setFrame_cmd (s : State) (f : Frame) (std : Std) : (s.setFrame f std).cmd = s.cmd := rfl
@[simp] theorem setFrame_status (s : State) (f : Frame) (std : Std) : (s.setFrame f std).status = s.status := rfl
@[simp] theorem setFrame_opa (s : State) (f : Frame) (std : Std) : (s.setFrame f std).opa = s.opa := rfl
@[simp] theorem setFrame_opb (s : State) (f : Frame) (std : Std) : (s.setFrame f std).opb = s.opb := rfl
@[simp] theorem setFrame_opc (s : State) (f : Frame) (std : Std) : (s.setFrame f std).opc = s.opc := rfl
@[simp] theorem setFrame_opd (s : State) (f : Frame) (std : Std) : (s.setFrame f std).opd = s.opd := rfl
@[simp] theorem setFrame_tin0 (s : State) (f : Frame) (std : Std) : (s.setFrame f std).tin0 = s.tin0 := rfl
@[simp] theorem setFrame_tin1 (s : State) (f : Frame) (std : Std) : (s.setFrame f std).tin1 = s.tin1 := rfl
@[simp] theorem setFrame_rate (s : State) (f : Frame) (std : Std) : (s.setFrame f std).rate = s.rate := rfl
@[simp] theorem setFrame_freq (s : State) (f : Frame) (std : Std) : (s.setFrame f std).freq = s.freq := rfl
@[simp] theorem setFrame_shape (s : State) (f : Frame) (std : Std) : (s.setFrame f std).shape = s.shape := rfl
@[simp] theorem setFrame_depth (s : State) (f : Frame) (std : Std) : (s.setFrame f std).depth = s.depth := rfl
@[simp] theorem setFrame_startSec (s : State) (f : Frame) (std : Std) : (s.setFrame f std).startSec = s.startSec := rfl
@[simp] theorem setFrame_res0 (s : State) (f : Frame) (std : Std) : (s.setFrame f std).res0 = s.res0 := rfl
@[simp] theorem setFrame_res1 (s : State) (f : Frame) (std : Std) : (s.setFrame f std).res1 = s.res1 := rfl
@[simp] theorem setFrame_frame (s : State) (f : Frame) (std : Std) : (s.setFrame f std).frame = f := rfl
@[simp] theorem setFrame_frameLoWritten (s : State) (f : Frame) (std : Std) : (s.setFrame f std).frameLoWritten = true := rfl
@[simp] theorem setFrame_frameHiWritten (s : State) (f : Frame) (std : Std) : (s.setFrame f std).frameHiWritten = true := rfl
@[simp] theorem setFrame_frameTag (s : State) (f : Frame) (std : Std) : (s.setFrame f std).frameTag = ⟨std, true⟩ := rfl
@[simp] theorem setFrame_pcmLen (s : State) (f : Frame) (std : Std) : (s.setFrame f std).pcmLen = s.pcmLen := rfl
@[simp] theorem setFrame_pcm (s : State) (f : Frame) (std : Std) : (s.setFrame f std).pcm = s.pcm := rfl
@[simp] theorem setFrame_params (s : State) (f : Frame) (std : Std) : (s.setFrame f std).params = s.params := rfl
@[simp] theorem setFrame_events (s : State) (f : Frame) (std : Std) : (s.setFrame f std).events = s.events := rfl
@[simp] theorem setFrame_readData (s : State) (f : Frame) (std : Std) : (s.setFrame f std).readData = s.readData := rfl
@[simp] theorem setFrame_resets (s : State) (f : Frame) (std : Std) : (s.setFrame f std).resets = s.resets := rfl

@[simp] theorem storeRecord_cmd (s : State) (std : Std) (f : Frame) : (s.storeRecord std f).cmd = s.cmd := rfl
@[simp] theorem storeRecord_status (s : State) (std : Std) (f : Frame) : (s.storeRecord std f).status = s.status := rfl
@[simp] theorem storeRecord_opa (s : State) (std : Std) (f : Frame) : (s.storeRecord std f).opa = s.opa := rfl
@[simp] theorem storeRecord_opb (s : State) (std : Std) (f : Frame) : (s.storeRecord std f).opb = s.opb := rfl
@[simp] theorem storeRecord_opc (s : State) (std : Std) (f : Frame) : (s.storeRecord std f).opc = s.opc := rfl
@[simp] theorem storeRecord_opd (s : State) (std : Std) (f : Frame) : (s.storeRecord std f).opd = s.opd := rfl
@[simp] theorem storeRecord_tin0 (s : State) (std : Std) (f : Frame) : (s.storeRecord std f).tin0 = s.tin0 := rfl
@[simp] theorem storeRecord_tin1 (s : State) (std : Std) (f : Frame) : (s.storeRecord std f).tin1 = s.tin1 := rfl
@[simp] theorem storeRecord_rate (s : State) (std : Std) (f : Frame) : (s.storeRecord std f).rate = s.rate := rfl
@[simp] theorem storeRecord_freq (s : State) (std : Std) (f : Frame) : (s.storeRecord std f).freq = s.freq := rfl
@[simp] theorem storeRecord_shape (s : State) (std : Std) (f : Frame) : (s.storeRecord std f).shape = s.shape := rfl
@[simp] theorem storeRecord_depth (s : State) (std : Std) (f : Frame) : (s.storeRecord std f).depth = s.depth := rfl
@[simp] theorem storeRecord_startSec (s : State) (std : Std) (f : Frame) : (s.storeRecord std f).startSec = s.startSec := rfl
@[simp] theorem storeRecord_res0 (s : State) (std : Std) (f : Frame) : (s.storeRecord std f).res0 = Reg.store (frameLo f) := rfl
@[simp] theorem storeRecord_res1 (s : State) (std : Std) (f : Frame) : (s.storeRecord std f).res1 = Reg.store (frameHi f) := rfl
@[simp] theorem storeRecord_frame (s : State) (std : Std) (f : Frame) : (s.storeRecord std f).frame = f := rfl
@[simp] theorem storeRecord_frameLoWritten (s : State) (std : Std) (f : Frame) : (s.storeRecord std f).frameLoWritten = true := rfl
@[simp] theorem storeRecord_frameHiWritten (s : State) (std : Std) (f : Frame) : (s.storeRecord std f).frameHiWritten = true := rfl
@[simp] theorem storeRecord_frameTag (s : State) (std : Std) (f : Frame) : (s.storeRecord std f).frameTag = ⟨std, true⟩ := rfl
@[simp] theorem storeRecord_pcmLen (s : State) (std : Std) (f : Frame) : (s.storeRecord std f).pcmLen = s.pcmLen := rfl
@[simp] theorem storeRecord_pcm (s : State) (std : Std) (f : Frame) : (s.storeRecord std f).pcm = s.pcm := rfl
@[simp] theorem storeRecord_params (s : State) (std : Std) (f : Frame) : (s.storeRecord std f).params = s.params := rfl
@[simp] theorem storeRecord_events (s : State) (std : Std) (f : Frame) : (s.storeRecord std f).events = s.events := rfl
@[simp] theorem storeRecord_readData (s : State) (std : Std) (f : Frame) : (s.storeRecord std f).readData = s.readData := rfl
@[simp] theorem storeRecord_resets (s : State) (std : Std) (f : Frame) : (s.storeRecord std f).resets = s.resets := rfl

@[simp] theorem setPcm_cmd (s : State) (m : List Host.Cell) (len : Word) : (s.setPcm m len).cmd = s.cmd := rfl
@[simp] theorem setPcm_status (s : State) (m : List Host.Cell) (len : Word) : (s.setPcm m len).status = s.status := rfl
@[simp] theorem setPcm_opa (s : State) (m : List Host.Cell) (len : Word) : (s.setPcm m len).opa = s.opa := rfl
@[simp] theorem setPcm_opb (s : State) (m : List Host.Cell) (len : Word) : (s.setPcm m len).opb = s.opb := rfl
@[simp] theorem setPcm_opc (s : State) (m : List Host.Cell) (len : Word) : (s.setPcm m len).opc = s.opc := rfl
@[simp] theorem setPcm_opd (s : State) (m : List Host.Cell) (len : Word) : (s.setPcm m len).opd = s.opd := rfl
@[simp] theorem setPcm_tin0 (s : State) (m : List Host.Cell) (len : Word) : (s.setPcm m len).tin0 = s.tin0 := rfl
@[simp] theorem setPcm_tin1 (s : State) (m : List Host.Cell) (len : Word) : (s.setPcm m len).tin1 = s.tin1 := rfl
@[simp] theorem setPcm_rate (s : State) (m : List Host.Cell) (len : Word) : (s.setPcm m len).rate = s.rate := rfl
@[simp] theorem setPcm_freq (s : State) (m : List Host.Cell) (len : Word) : (s.setPcm m len).freq = s.freq := rfl
@[simp] theorem setPcm_shape (s : State) (m : List Host.Cell) (len : Word) : (s.setPcm m len).shape = s.shape := rfl
@[simp] theorem setPcm_depth (s : State) (m : List Host.Cell) (len : Word) : (s.setPcm m len).depth = s.depth := rfl
@[simp] theorem setPcm_startSec (s : State) (m : List Host.Cell) (len : Word) : (s.setPcm m len).startSec = s.startSec := rfl
@[simp] theorem setPcm_res0 (s : State) (m : List Host.Cell) (len : Word) : (s.setPcm m len).res0 = s.res0 := rfl
@[simp] theorem setPcm_res1 (s : State) (m : List Host.Cell) (len : Word) : (s.setPcm m len).res1 = s.res1 := rfl
@[simp] theorem setPcm_frame (s : State) (m : List Host.Cell) (len : Word) : (s.setPcm m len).frame = s.frame := rfl
@[simp] theorem setPcm_frameLoWritten (s : State) (m : List Host.Cell) (len : Word) : (s.setPcm m len).frameLoWritten = s.frameLoWritten := rfl
@[simp] theorem setPcm_frameHiWritten (s : State) (m : List Host.Cell) (len : Word) : (s.setPcm m len).frameHiWritten = s.frameHiWritten := rfl
@[simp] theorem setPcm_frameTag (s : State) (m : List Host.Cell) (len : Word) : (s.setPcm m len).frameTag = s.frameTag := rfl
@[simp] theorem setPcm_pcmLen (s : State) (m : List Host.Cell) (len : Word) : (s.setPcm m len).pcmLen = len := rfl
@[simp] theorem setPcm_pcm (s : State) (m : List Host.Cell) (len : Word) : (s.setPcm m len).pcm = m := rfl
@[simp] theorem setPcm_params (s : State) (m : List Host.Cell) (len : Word) : (s.setPcm m len).params = s.params := rfl
@[simp] theorem setPcm_events (s : State) (m : List Host.Cell) (len : Word) : (s.setPcm m len).events = s.events := rfl
@[simp] theorem setPcm_readData (s : State) (m : List Host.Cell) (len : Word) : (s.setPcm m len).readData = s.readData := rfl
@[simp] theorem setPcm_resets (s : State) (m : List Host.Cell) (len : Word) : (s.setPcm m len).resets = s.resets := rfl

@[simp] theorem endOk_cmd (s : State) : s.endOk.cmd = s.cmd := rfl
@[simp] theorem endOk_status (s : State) : s.endOk.status = statusEndOk s.status := rfl
@[simp] theorem endOk_opa (s : State) : s.endOk.opa = s.opa := rfl
@[simp] theorem endOk_opb (s : State) : s.endOk.opb = s.opb := rfl
@[simp] theorem endOk_opc (s : State) : s.endOk.opc = s.opc := rfl
@[simp] theorem endOk_opd (s : State) : s.endOk.opd = s.opd := rfl
@[simp] theorem endOk_tin0 (s : State) : s.endOk.tin0 = s.tin0 := rfl
@[simp] theorem endOk_tin1 (s : State) : s.endOk.tin1 = s.tin1 := rfl
@[simp] theorem endOk_rate (s : State) : s.endOk.rate = s.rate := rfl
@[simp] theorem endOk_freq (s : State) : s.endOk.freq = s.freq := rfl
@[simp] theorem endOk_shape (s : State) : s.endOk.shape = s.shape := rfl
@[simp] theorem endOk_depth (s : State) : s.endOk.depth = s.depth := rfl
@[simp] theorem endOk_startSec (s : State) : s.endOk.startSec = s.startSec := rfl
@[simp] theorem endOk_res0 (s : State) : s.endOk.res0 = s.res0 := rfl
@[simp] theorem endOk_res1 (s : State) : s.endOk.res1 = s.res1 := rfl
@[simp] theorem endOk_frame (s : State) : s.endOk.frame = s.frame := rfl
@[simp] theorem endOk_frameLoWritten (s : State) : s.endOk.frameLoWritten = s.frameLoWritten := rfl
@[simp] theorem endOk_frameHiWritten (s : State) : s.endOk.frameHiWritten = s.frameHiWritten := rfl
@[simp] theorem endOk_frameTag (s : State) : s.endOk.frameTag = s.frameTag := rfl
@[simp] theorem endOk_pcmLen (s : State) : s.endOk.pcmLen = s.pcmLen := rfl
@[simp] theorem endOk_pcm (s : State) : s.endOk.pcm = s.pcm := rfl
@[simp] theorem endOk_params (s : State) : s.endOk.params = s.params := rfl
@[simp] theorem endOk_events (s : State) : s.endOk.events = s.events := rfl
@[simp] theorem endOk_readData (s : State) : s.endOk.readData = s.readData := rfl
@[simp] theorem endOk_resets (s : State) : s.endOk.resets = s.resets := rfl

@[simp] theorem endError_cmd (s : State) (e : ErrCode) : (s.endError e).cmd = s.cmd := rfl
@[simp] theorem endError_status (s : State) (e : ErrCode) : (s.endError e).status = statusEndError e s.status := rfl
@[simp] theorem endError_opa (s : State) (e : ErrCode) : (s.endError e).opa = s.opa := rfl
@[simp] theorem endError_opb (s : State) (e : ErrCode) : (s.endError e).opb = s.opb := rfl
@[simp] theorem endError_opc (s : State) (e : ErrCode) : (s.endError e).opc = s.opc := rfl
@[simp] theorem endError_opd (s : State) (e : ErrCode) : (s.endError e).opd = s.opd := rfl
@[simp] theorem endError_tin0 (s : State) (e : ErrCode) : (s.endError e).tin0 = s.tin0 := rfl
@[simp] theorem endError_tin1 (s : State) (e : ErrCode) : (s.endError e).tin1 = s.tin1 := rfl
@[simp] theorem endError_rate (s : State) (e : ErrCode) : (s.endError e).rate = s.rate := rfl
@[simp] theorem endError_freq (s : State) (e : ErrCode) : (s.endError e).freq = s.freq := rfl
@[simp] theorem endError_shape (s : State) (e : ErrCode) : (s.endError e).shape = s.shape := rfl
@[simp] theorem endError_depth (s : State) (e : ErrCode) : (s.endError e).depth = s.depth := rfl
@[simp] theorem endError_startSec (s : State) (e : ErrCode) : (s.endError e).startSec = s.startSec := rfl
@[simp] theorem endError_res0 (s : State) (e : ErrCode) : (s.endError e).res0 = s.res0 := rfl
@[simp] theorem endError_res1 (s : State) (e : ErrCode) : (s.endError e).res1 = s.res1 := rfl
@[simp] theorem endError_frame (s : State) (e : ErrCode) : (s.endError e).frame = s.frame := rfl
@[simp] theorem endError_frameLoWritten (s : State) (e : ErrCode) : (s.endError e).frameLoWritten = s.frameLoWritten := rfl
@[simp] theorem endError_frameHiWritten (s : State) (e : ErrCode) : (s.endError e).frameHiWritten = s.frameHiWritten := rfl
@[simp] theorem endError_frameTag (s : State) (e : ErrCode) : (s.endError e).frameTag = s.frameTag := rfl
@[simp] theorem endError_pcmLen (s : State) (e : ErrCode) : (s.endError e).pcmLen = s.pcmLen := rfl
@[simp] theorem endError_pcm (s : State) (e : ErrCode) : (s.endError e).pcm = s.pcm := rfl
@[simp] theorem endError_params (s : State) (e : ErrCode) : (s.endError e).params = s.params := rfl
@[simp] theorem endError_events (s : State) (e : ErrCode) : (s.endError e).events = s.events := rfl
@[simp] theorem endError_readData (s : State) (e : ErrCode) : (s.endError e).readData = s.readData := rfl
@[simp] theorem endError_resets (s : State) (e : ErrCode) : (s.endError e).resets = s.resets := rfl

@[simp] theorem setReadData_cmd (s : State) (v : Word) : (s.setReadData v).cmd = s.cmd := rfl
@[simp] theorem setReadData_status (s : State) (v : Word) : (s.setReadData v).status = s.status := rfl
@[simp] theorem setReadData_opa (s : State) (v : Word) : (s.setReadData v).opa = s.opa := rfl
@[simp] theorem setReadData_opb (s : State) (v : Word) : (s.setReadData v).opb = s.opb := rfl
@[simp] theorem setReadData_opc (s : State) (v : Word) : (s.setReadData v).opc = s.opc := rfl
@[simp] theorem setReadData_opd (s : State) (v : Word) : (s.setReadData v).opd = s.opd := rfl
@[simp] theorem setReadData_tin0 (s : State) (v : Word) : (s.setReadData v).tin0 = s.tin0 := rfl
@[simp] theorem setReadData_tin1 (s : State) (v : Word) : (s.setReadData v).tin1 = s.tin1 := rfl
@[simp] theorem setReadData_rate (s : State) (v : Word) : (s.setReadData v).rate = s.rate := rfl
@[simp] theorem setReadData_freq (s : State) (v : Word) : (s.setReadData v).freq = s.freq := rfl
@[simp] theorem setReadData_shape (s : State) (v : Word) : (s.setReadData v).shape = s.shape := rfl
@[simp] theorem setReadData_depth (s : State) (v : Word) : (s.setReadData v).depth = s.depth := rfl
@[simp] theorem setReadData_startSec (s : State) (v : Word) : (s.setReadData v).startSec = s.startSec := rfl
@[simp] theorem setReadData_res0 (s : State) (v : Word) : (s.setReadData v).res0 = s.res0 := rfl
@[simp] theorem setReadData_res1 (s : State) (v : Word) : (s.setReadData v).res1 = s.res1 := rfl
@[simp] theorem setReadData_frame (s : State) (v : Word) : (s.setReadData v).frame = s.frame := rfl
@[simp] theorem setReadData_frameLoWritten (s : State) (v : Word) : (s.setReadData v).frameLoWritten = s.frameLoWritten := rfl
@[simp] theorem setReadData_frameHiWritten (s : State) (v : Word) : (s.setReadData v).frameHiWritten = s.frameHiWritten := rfl
@[simp] theorem setReadData_frameTag (s : State) (v : Word) : (s.setReadData v).frameTag = s.frameTag := rfl
@[simp] theorem setReadData_pcmLen (s : State) (v : Word) : (s.setReadData v).pcmLen = s.pcmLen := rfl
@[simp] theorem setReadData_pcm (s : State) (v : Word) : (s.setReadData v).pcm = s.pcm := rfl
@[simp] theorem setReadData_params (s : State) (v : Word) : (s.setReadData v).params = s.params := rfl
@[simp] theorem setReadData_events (s : State) (v : Word) : (s.setReadData v).events = s.events := rfl
@[simp] theorem setReadData_readData (s : State) (v : Word) : (s.setReadData v).readData = some v := rfl
@[simp] theorem setReadData_resets (s : State) (v : Word) : (s.setReadData v).resets = s.resets := rfl

@[simp] theorem dropWrite_cmd (s : State) : s.dropWrite.cmd = s.cmd := rfl
@[simp] theorem dropWrite_status (s : State) : s.dropWrite.status = statusDropped s.status := rfl
@[simp] theorem dropWrite_opa (s : State) : s.dropWrite.opa = s.opa := rfl
@[simp] theorem dropWrite_opb (s : State) : s.dropWrite.opb = s.opb := rfl
@[simp] theorem dropWrite_opc (s : State) : s.dropWrite.opc = s.opc := rfl
@[simp] theorem dropWrite_opd (s : State) : s.dropWrite.opd = s.opd := rfl
@[simp] theorem dropWrite_tin0 (s : State) : s.dropWrite.tin0 = s.tin0 := rfl
@[simp] theorem dropWrite_tin1 (s : State) : s.dropWrite.tin1 = s.tin1 := rfl
@[simp] theorem dropWrite_rate (s : State) : s.dropWrite.rate = s.rate := rfl
@[simp] theorem dropWrite_freq (s : State) : s.dropWrite.freq = s.freq := rfl
@[simp] theorem dropWrite_shape (s : State) : s.dropWrite.shape = s.shape := rfl
@[simp] theorem dropWrite_depth (s : State) : s.dropWrite.depth = s.depth := rfl
@[simp] theorem dropWrite_startSec (s : State) : s.dropWrite.startSec = s.startSec := rfl
@[simp] theorem dropWrite_res0 (s : State) : s.dropWrite.res0 = s.res0 := rfl
@[simp] theorem dropWrite_res1 (s : State) : s.dropWrite.res1 = s.res1 := rfl
@[simp] theorem dropWrite_frame (s : State) : s.dropWrite.frame = s.frame := rfl
@[simp] theorem dropWrite_frameLoWritten (s : State) : s.dropWrite.frameLoWritten = s.frameLoWritten := rfl
@[simp] theorem dropWrite_frameHiWritten (s : State) : s.dropWrite.frameHiWritten = s.frameHiWritten := rfl
@[simp] theorem dropWrite_frameTag (s : State) : s.dropWrite.frameTag = s.frameTag := rfl
@[simp] theorem dropWrite_pcmLen (s : State) : s.dropWrite.pcmLen = s.pcmLen := rfl
@[simp] theorem dropWrite_pcm (s : State) : s.dropWrite.pcm = s.pcm := rfl
@[simp] theorem dropWrite_params (s : State) : s.dropWrite.params = s.params := rfl
@[simp] theorem dropWrite_events (s : State) : s.dropWrite.events = s.events := rfl
@[simp] theorem dropWrite_readData (s : State) : s.dropWrite.readData = s.readData := rfl
@[simp] theorem dropWrite_resets (s : State) : s.dropWrite.resets = s.resets := rfl

@[simp] theorem setEvents_cmd (s : State) (es : List Event) : (s.setEvents es).cmd = s.cmd := rfl
@[simp] theorem setEvents_status (s : State) (es : List Event) : (s.setEvents es).status = s.status := rfl
@[simp] theorem setEvents_opa (s : State) (es : List Event) : (s.setEvents es).opa = s.opa := rfl
@[simp] theorem setEvents_opb (s : State) (es : List Event) : (s.setEvents es).opb = s.opb := rfl
@[simp] theorem setEvents_opc (s : State) (es : List Event) : (s.setEvents es).opc = s.opc := rfl
@[simp] theorem setEvents_opd (s : State) (es : List Event) : (s.setEvents es).opd = s.opd := rfl
@[simp] theorem setEvents_tin0 (s : State) (es : List Event) : (s.setEvents es).tin0 = s.tin0 := rfl
@[simp] theorem setEvents_tin1 (s : State) (es : List Event) : (s.setEvents es).tin1 = s.tin1 := rfl
@[simp] theorem setEvents_rate (s : State) (es : List Event) : (s.setEvents es).rate = s.rate := rfl
@[simp] theorem setEvents_freq (s : State) (es : List Event) : (s.setEvents es).freq = s.freq := rfl
@[simp] theorem setEvents_shape (s : State) (es : List Event) : (s.setEvents es).shape = s.shape := rfl
@[simp] theorem setEvents_depth (s : State) (es : List Event) : (s.setEvents es).depth = s.depth := rfl
@[simp] theorem setEvents_startSec (s : State) (es : List Event) : (s.setEvents es).startSec = s.startSec := rfl
@[simp] theorem setEvents_res0 (s : State) (es : List Event) : (s.setEvents es).res0 = s.res0 := rfl
@[simp] theorem setEvents_res1 (s : State) (es : List Event) : (s.setEvents es).res1 = s.res1 := rfl
@[simp] theorem setEvents_frame (s : State) (es : List Event) : (s.setEvents es).frame = s.frame := rfl
@[simp] theorem setEvents_frameLoWritten (s : State) (es : List Event) : (s.setEvents es).frameLoWritten = s.frameLoWritten := rfl
@[simp] theorem setEvents_frameHiWritten (s : State) (es : List Event) : (s.setEvents es).frameHiWritten = s.frameHiWritten := rfl
@[simp] theorem setEvents_frameTag (s : State) (es : List Event) : (s.setEvents es).frameTag = s.frameTag := rfl
@[simp] theorem setEvents_pcmLen (s : State) (es : List Event) : (s.setEvents es).pcmLen = s.pcmLen := rfl
@[simp] theorem setEvents_pcm (s : State) (es : List Event) : (s.setEvents es).pcm = s.pcm := rfl
@[simp] theorem setEvents_params (s : State) (es : List Event) : (s.setEvents es).params = s.params := rfl
@[simp] theorem setEvents_events (s : State) (es : List Event) : (s.setEvents es).events = es := rfl
@[simp] theorem setEvents_readData (s : State) (es : List Event) : (s.setEvents es).readData = s.readData := rfl
@[simp] theorem setEvents_resets (s : State) (es : List Event) : (s.setEvents es).resets = s.resets := rfl

@[simp] theorem resetBlock_cmd (s : State) : s.resetBlock.cmd = State.reset.cmd := rfl
@[simp] theorem resetBlock_status (s : State) : s.resetBlock.status = State.reset.status := rfl
@[simp] theorem resetBlock_opa (s : State) : s.resetBlock.opa = State.reset.opa := rfl
@[simp] theorem resetBlock_opb (s : State) : s.resetBlock.opb = State.reset.opb := rfl
@[simp] theorem resetBlock_opc (s : State) : s.resetBlock.opc = State.reset.opc := rfl
@[simp] theorem resetBlock_opd (s : State) : s.resetBlock.opd = State.reset.opd := rfl
@[simp] theorem resetBlock_tin0 (s : State) : s.resetBlock.tin0 = State.reset.tin0 := rfl
@[simp] theorem resetBlock_tin1 (s : State) : s.resetBlock.tin1 = State.reset.tin1 := rfl
@[simp] theorem resetBlock_rate (s : State) : s.resetBlock.rate = State.reset.rate := rfl
@[simp] theorem resetBlock_freq (s : State) : s.resetBlock.freq = State.reset.freq := rfl
@[simp] theorem resetBlock_shape (s : State) : s.resetBlock.shape = State.reset.shape := rfl
@[simp] theorem resetBlock_depth (s : State) : s.resetBlock.depth = State.reset.depth := rfl
@[simp] theorem resetBlock_startSec (s : State) : s.resetBlock.startSec = State.reset.startSec := rfl
@[simp] theorem resetBlock_res0 (s : State) : s.resetBlock.res0 = State.reset.res0 := rfl
@[simp] theorem resetBlock_res1 (s : State) : s.resetBlock.res1 = State.reset.res1 := rfl
@[simp] theorem resetBlock_frame (s : State) : s.resetBlock.frame = State.reset.frame := rfl
@[simp] theorem resetBlock_frameLoWritten (s : State) : s.resetBlock.frameLoWritten = State.reset.frameLoWritten := rfl
@[simp] theorem resetBlock_frameHiWritten (s : State) : s.resetBlock.frameHiWritten = State.reset.frameHiWritten := rfl
@[simp] theorem resetBlock_frameTag (s : State) : s.resetBlock.frameTag = State.reset.frameTag := rfl
@[simp] theorem resetBlock_pcmLen (s : State) : s.resetBlock.pcmLen = State.reset.pcmLen := rfl
@[simp] theorem resetBlock_pcm (s : State) : s.resetBlock.pcm = State.reset.pcm := rfl
@[simp] theorem resetBlock_params (s : State) : s.resetBlock.params = s.params := rfl
@[simp] theorem resetBlock_events (s : State) : s.resetBlock.events = s.events := rfl
@[simp] theorem resetBlock_readData (s : State) : s.resetBlock.readData = s.readData := rfl
@[simp] theorem resetBlock_resets (s : State) : s.resetBlock.resets = s.resets + 1 := rfl

@[simp] theorem withFetchWord_cmd (s : State) (nbits w : Nat) : (s.withFetchWord nbits w).cmd = Reg.store (BitVec.ofNat 64 (w % 2 ^ nbits)) := rfl
@[simp] theorem withFetchWord_status (s : State) (nbits w : Nat) : (s.withFetchWord nbits w).status = statusAccept s.status := rfl
@[simp] theorem withFetchWord_opa (s : State) (nbits w : Nat) : (s.withFetchWord nbits w).opa = s.opa := rfl
@[simp] theorem withFetchWord_opb (s : State) (nbits w : Nat) : (s.withFetchWord nbits w).opb = s.opb := rfl
@[simp] theorem withFetchWord_opc (s : State) (nbits w : Nat) : (s.withFetchWord nbits w).opc = s.opc := rfl
@[simp] theorem withFetchWord_opd (s : State) (nbits w : Nat) : (s.withFetchWord nbits w).opd = s.opd := rfl
@[simp] theorem withFetchWord_tin0 (s : State) (nbits w : Nat) : (s.withFetchWord nbits w).tin0 = s.tin0 := rfl
@[simp] theorem withFetchWord_tin1 (s : State) (nbits w : Nat) : (s.withFetchWord nbits w).tin1 = s.tin1 := rfl
@[simp] theorem withFetchWord_rate (s : State) (nbits w : Nat) : (s.withFetchWord nbits w).rate = s.rate := rfl
@[simp] theorem withFetchWord_freq (s : State) (nbits w : Nat) : (s.withFetchWord nbits w).freq = s.freq := rfl
@[simp] theorem withFetchWord_shape (s : State) (nbits w : Nat) : (s.withFetchWord nbits w).shape = s.shape := rfl
@[simp] theorem withFetchWord_depth (s : State) (nbits w : Nat) : (s.withFetchWord nbits w).depth = s.depth := rfl
@[simp] theorem withFetchWord_startSec (s : State) (nbits w : Nat) : (s.withFetchWord nbits w).startSec = s.startSec := rfl
@[simp] theorem withFetchWord_res0 (s : State) (nbits w : Nat) : (s.withFetchWord nbits w).res0 = s.res0 := rfl
@[simp] theorem withFetchWord_res1 (s : State) (nbits w : Nat) : (s.withFetchWord nbits w).res1 = s.res1 := rfl
@[simp] theorem withFetchWord_frame (s : State) (nbits w : Nat) : (s.withFetchWord nbits w).frame = s.frame := rfl
@[simp] theorem withFetchWord_frameLoWritten (s : State) (nbits w : Nat) : (s.withFetchWord nbits w).frameLoWritten = s.frameLoWritten := rfl
@[simp] theorem withFetchWord_frameHiWritten (s : State) (nbits w : Nat) : (s.withFetchWord nbits w).frameHiWritten = s.frameHiWritten := rfl
@[simp] theorem withFetchWord_frameTag (s : State) (nbits w : Nat) : (s.withFetchWord nbits w).frameTag = s.frameTag := rfl
@[simp] theorem withFetchWord_pcmLen (s : State) (nbits w : Nat) : (s.withFetchWord nbits w).pcmLen = s.pcmLen := rfl
@[simp] theorem withFetchWord_pcm (s : State) (nbits w : Nat) : (s.withFetchWord nbits w).pcm = s.pcm := rfl
@[simp] theorem withFetchWord_params (s : State) (nbits w : Nat) : (s.withFetchWord nbits w).params = s.params := rfl
@[simp] theorem withFetchWord_events (s : State) (nbits w : Nat) : (s.withFetchWord nbits w).events = [] := rfl
@[simp] theorem withFetchWord_readData (s : State) (nbits w : Nat) : (s.withFetchWord nbits w).readData = s.readData := rfl
@[simp] theorem withFetchWord_resets (s : State) (nbits w : Nat) : (s.withFetchWord nbits w).resets = s.resets := rfl

@[simp] theorem statusEndOk_busy (st : Status) : (statusEndOk st).busy = false := rfl
@[simp] theorem statusEndOk_err (st : Status) : (statusEndOk st).err = false := rfl
@[simp] theorem statusEndOk_lost (st : Status) : (statusEndOk st).lost = st.lost := rfl
@[simp] theorem statusEndOk_ecode (st : Status) : (statusEndOk st).ecode = none := rfl

@[simp] theorem statusEndError_busy (e : ErrCode) (st : Status) : (statusEndError e st).busy = false := rfl
@[simp] theorem statusEndError_err (e : ErrCode) (st : Status) : (statusEndError e st).err = true := rfl
@[simp] theorem statusEndError_lost (e : ErrCode) (st : Status) : (statusEndError e st).lost = st.lost := rfl
@[simp] theorem statusEndError_ecode (e : ErrCode) (st : Status) : (statusEndError e st).ecode = some e := rfl

@[simp] theorem statusAccept_busy (st : Status) : (statusAccept st).busy = true := rfl
@[simp] theorem statusAccept_err (st : Status) : (statusAccept st).err = st.err := rfl
@[simp] theorem statusAccept_lost (st : Status) : (statusAccept st).lost = st.lost := rfl
@[simp] theorem statusAccept_ecode (st : Status) : (statusAccept st).ecode = st.ecode := rfl

@[simp] theorem statusDropped_busy (st : Status) : (statusDropped st).busy = st.busy := rfl
@[simp] theorem statusDropped_err (st : Status) : (statusDropped st).err = st.err := rfl
@[simp] theorem statusDropped_lost (st : Status) : (statusDropped st).lost = true := rfl
@[simp] theorem statusDropped_ecode (st : Status) : (statusDropped st).ecode = st.ecode := rfl

@[simp] theorem statusWritten_busy (v : Word) (st : Status) : (statusWritten v st).busy = st.busy := rfl
@[simp] theorem statusWritten_err (v : Word) (st : Status) : (statusWritten v st).err = st.err := rfl
@[simp] theorem statusWritten_lost (v : Word) (st : Status) : (statusWritten v st).lost = (st.lost && !v.getLsbD 2) := rfl
@[simp] theorem statusWritten_ecode (v : Word) (st : Status) : (statusWritten v st).ecode = st.ecode := rfl

@[simp] theorem store_value (v : Word) : (Reg.store v).value = v := rfl
@[simp] theorem store_written (v : Word) : (Reg.store v).written = true := rfl

end Sys2Proof.Machine
end

