-- ==== Sys2Proof/Laws/Ops.lean ====
section
/-! SUPPORT. One lemma per shared operation, saying once everything it can do: the checks, the operand reads, and a
command's two ends. Provers cite these instead of unfolding. -/

namespace Sys2Proof.Machine

/-- `require` goes on exactly where its condition holds. -/
@[simp] theorem require_eq_ok (c : Bool) (e : ErrCode) (u : Unit) : require c e = .ok u ↔ c = true := by
  cases c <;> simp [require]

/-- `require` ends with its own code exactly where its condition fails. -/
@[simp] theorem require_eq_error (c : Bool) (e e' : ErrCode) : require c e = .error e' ↔ c = false ∧ e = e' := by
  cases c <;> simp [require]

@[simp] theorem require_true (e : ErrCode) : require true e = .ok () := rfl
@[simp] theorem require_false (e : ErrCode) : require false e = .error e := rfl

/-- An operand read gives the register's unsigned value exactly where its written flag is set. -/
@[simp] theorem operand_eq_ok (r : Reg) (n : Nat) :
    operand r = .ok n ↔ r.written = true ∧ r.value.toNat = n := by
  cases h : r.written <;> simp [operand, h]

/-- An operand read ends with UNINIT exactly where the written flag is clear. -/
@[simp] theorem operand_eq_error (r : Reg) (e : ErrCode) :
    operand r = .error e ↔ r.written = false ∧ ErrCode.uninit = e := by
  cases h : r.written <;> simp [operand, h]

@[simp] theorem operandBits_eq_ok (r : Reg) (w : Word) :
    operandBits r = .ok w ↔ r.written = true ∧ r.value = w := by
  cases h : r.written <;> simp [operandBits, h]

@[simp] theorem operandBits_eq_error (r : Reg) (e : ErrCode) :
    operandBits r = .error e ↔ r.written = false ∧ ErrCode.uninit = e := by
  cases h : r.written <;> simp [operandBits, h]

theorem operand_written {r : Reg} (h : r.written = true) : operand r = .ok r.value.toNat := by
  simp [h]

theorem operandBits_written {r : Reg} (h : r.written = true) : operandBits r = .ok r.value := by
  simp [h]

theorem operand_unwritten {r : Reg} (h : r.written = false) : operand r = .error .uninit := by
  simp [h]

theorem operandBits_unwritten {r : Reg} (h : r.written = false) : operandBits r = .error .uninit := by
  simp [h]

/-- A sequence of checks succeeds exactly where its first part does and the rest does on its value. -/
theorem bind_eq_ok {α β : Type} (x : Except ErrCode α) (f : α → Except ErrCode β) (b : β) :
    (x >>= f) = .ok b ↔ ∃ a, x = .ok a ∧ f a = .ok b := by
  cases x <;> simp [bind, Except.bind]

/-- A sequence of checks fails in its first part, or in the rest on its value. -/
theorem bind_eq_error {α β : Type} (x : Except ErrCode α) (f : α → Except ErrCode β) (e : ErrCode) :
    (x >>= f) = .error e ↔ x = .error e ∨ ∃ a, x = .ok a ∧ f a = .error e := by
  cases x <;> simp [bind, Except.bind]

@[simp] theorem ok_bind {α β : Type} (a : α) (f : α → Except ErrCode β) :
    ((Except.ok a : Except ErrCode α) >>= f) = f a := rfl

@[simp] theorem error_bind {α β : Type} (e : ErrCode) (f : α → Except ErrCode β) :
    ((Except.error e : Except ErrCode α) >>= f) = .error e := rfl

@[simp] theorem commandEnd_ok (s t : State) : commandEnd s (.ok t) = .next t.endOk := rfl
@[simp] theorem commandEnd_error (s : State) (e : ErrCode) : commandEnd s (.error e) = .next (s.endError e) := rfl

/-- Everything a command's end can be: the writes made and a successful end, or the state as it was and an error end. -/
theorem commandEnd_cases (s : State) (r : Except ErrCode State) :
    (∃ t, r = .ok t ∧ commandEnd s r = .next t.endOk) ∨
      (∃ e, r = .error e ∧ commandEnd s r = .next (s.endError e)) := by
  cases r with
  | ok t => exact .inl ⟨t, rfl, rfl⟩
  | error e => exact .inr ⟨e, rfl, rfl⟩

/-- A command that ends with an error changes nothing but STATUS. -/
theorem commandEnd_error_state {s t : State} {r : Except ErrCode State} (h : commandEnd s r = .next t)
    (herr : t.status.err = true) : ∃ e, t = s.endError e := by
  rcases commandEnd_cases s r with ⟨u, -, hu⟩ | ⟨e, -, he⟩
  · rw [hu] at h
    cases h
    simp at herr
  · rw [he] at h
    cases h
    exact ⟨e, rfl⟩

/-- What a host write to the port does: a bus error, a dropped write, or the register's write. -/
theorem hostWriteReg_cases (offset bits : Nat) (v : Word) (s : State) :
    (portRegister offset bits = none ∧ hostWriteReg offset bits v s = .refused (.busErrorRegister offset bits)) ∨
      ∃ r, portRegister offset bits = some r ∧
        ((s.status.busy = true ∧ r ≠ .status ∧ hostWriteReg offset bits v s = .next s.dropWrite) ∨
          ((s.status.busy = false ∨ r = .status) ∧ hostWriteReg offset bits v s = .next (writeRegister r v s))) := by
  unfold hostWriteReg
  cases hp : portRegister offset bits with
  | none => exact .inl ⟨rfl, rfl⟩
  | some r =>
    refine .inr ⟨r, rfl, ?_⟩
    cases hb : s.status.busy
    · exact .inr ⟨.inl rfl, by simp⟩
    · by_cases hr : r = .status
      · exact .inr ⟨.inr hr, by simp [hr]⟩
      · exact .inl ⟨rfl, hr, by simp [hr]⟩

/-- What a host read of the port does: a bus error, a free value for an unwritten register, or the value. -/
theorem hostReadReg_cases (offset bits : Nat) (s : State) :
    (portRegister offset bits = none ∧ hostReadReg offset bits s = .refused (.busErrorRegister offset bits)) ∨
      ∃ r, portRegister offset bits = some r ∧
        ((readRegister r s = none ∧
            hostReadReg offset bits s = .next (s.setReadData (unspecifiedValue r offset s))) ∨
          ∃ v, readRegister r s = some v ∧ hostReadReg offset bits s = .next (s.setReadData v)) := by
  unfold hostReadReg
  cases hp : portRegister offset bits with
  | none => exact .inl ⟨rfl, rfl⟩
  | some r =>
    refine .inr ⟨r, rfl, ?_⟩
    cases hv : readRegister r s with
    | none => exact .inl ⟨rfl, by simp [hv]⟩
    | some v => exact .inr ⟨v, rfl, by simp [hv]⟩

/-- What a host PCM read does: a bus error, a fault on an unwritten byte, or the value. -/
theorem hostReadPcm_cases (addr n : Nat) (seesNew : BitVec 8) (s : State) :
    hostReadPcm addr n seesNew s = .refused (.busErrorPcm addr n) ∨
      (∃ a, hostReadPcm addr n seesNew s = .fault (.unwrittenPcm a)) ∨
        ∃ v, hostReadPcm addr n seesNew s = .next (s.setReadData v) := by
  unfold hostReadPcm
  split
  · split
    · exact .inr (.inr ⟨_, rfl⟩)
    · exact .inr (.inl ⟨_, rfl⟩)
  · exact .inl rfl

/-- What a step does, by what is next. -/
theorem step_of_no_event {s : State} (h : s.events = []) : step s = endRunning s := by
  simp [step, nextEvent, h]

theorem step_of_host {s : State} {op : HostOp} {rest : List Event} (h : s.events = .host op :: rest) :
    step s = hostAccess op (s.setEvents rest) := by
  simp [step, nextEvent, h]

theorem step_of_commandEnd {s : State} {rest : List Event} (h : s.events = .commandEnd :: rest) :
    step s = endRunning (s.setEvents rest) := by
  simp [step, nextEvent, h]

theorem step_of_reset {s : State} {rest : List Event} (h : s.events = .reset :: rest) :
    step s = .next (s.setEvents rest).resetBlock := by
  simp [step, nextEvent, h]

end Sys2Proof.Machine
end

