-- ==== Sys2Proof/Laws/Ends.lean ====
section
/-! SUPPORT. The two ends of a command in the claims' terms, and what a flagged register reads. -/

namespace Sys2Proof.Machine

@[simp] theorem endError_eq_failed (s : State) (e : ErrCode) : s.endError e = s.failed e := rfl

@[simp] theorem endOk_setResults (s : State) (r0 r1 : Word) : (s.setResults r0 r1).endOk = s.succeeded r0 r1 := rfl

@[simp] theorem endOk_storeRecord (s : State) (std : Std) (f : Frame) :
    (s.storeRecord std f).endOk = s.recorded std f := rfl

@[simp] theorem flagged_true (v : Word) : flagged true v = some v := rfl

@[simp] theorem flagged_false (v : Word) : flagged false v = none := rfl

theorem flagged_eq_none (w : Bool) (v : Word) : flagged w v = none ↔ w = false := by cases w <;> simp

theorem flagged_eq_some (w : Bool) (v u : Word) : flagged w v = some u ↔ w = true ∧ v = u := by cases w <;> simp

/-- Every command answers a next state: it succeeds or it fails with one code. -/
theorem exec_answers_next (i : Instr) (s : State) : ∃ t, exec i s = .next t := by
  have key : ∀ r, ∃ t, commandEnd s r = .next t := by
    intro r
    cases r with
    | ok t => exact ⟨_, rfl⟩
    | error e => exact ⟨_, rfl⟩
  cases i <;>
    delta exec <;>
    simp only [
      execNop, execBcdEnc, execBcdDec, execBcd5Enc, execBcd5Dec, execReverse, execParity, execBits, execSetbits,
        execRecEncodeDcf77, execRecEncodeWwvb, execRecEncodeJjy, execRecEncodeBpc, execRecLoadDcf77,
        execRecLoadWwvb, execRecLoadJjy, execRecLoadBpc, execRecRaw, execRecField, execRecValid, execRecSym,
        execSchedule, execEnvelope, execSample, execRender, recEncode, recLoad60, recLoad120] <;>
    exact key _

/-- Everything a command can do: fail and change STATUS alone, be NOP, write both results, write a record, or render. -/
def CommandEffect (i : Instr) (s t : State) : Prop :=
  (∃ e, t = s.failed e) ∨
  (i = .nop ∧ t = s.endOk) ∨
  (i ≠ .nop ∧ writesFrame i = false ∧ i ≠ .render ∧ ∃ r0 r1, t = s.succeeded r0 r1) ∨
  (i ≠ .nop ∧ writesFrame i = true ∧ i ≠ .render ∧ ∃ std f, t = s.recorded std f) ∨
  (i = .render ∧ ∃ job, renderJob s = .ok job ∧
    t = { s.succeeded (toWord (renderCount job.rate job.startSec)) (toWord (2 * renderCount job.rate job.startSec)) with
      pcm := renderPcm s.params job s.pcm, pcmLen := toWord (2 * renderCount job.rate job.startSec) })

/-- A command's next state is one of its effects. -/
theorem exec_cases {i : Instr} {s t : State} (h : exec i s = .next t) : CommandEffect i s t := by
  have key : ∀ r, commandEnd s r = .next t → (∀ u, r = .ok u → CommandEffect i s u.endOk) → CommandEffect i s t := by
    intro r hr hu
    cases r with
    | ok u => cases hr; exact hu u rfl
    | error e => cases hr; exact .inl ⟨e, rfl⟩
  cases i <;>
    delta exec at h <;>
    simp only [
      execNop, execBcdEnc, execBcdDec, execBcd5Enc, execBcd5Dec, execReverse, execParity, execBits, execSetbits,
        execRecEncodeDcf77, execRecEncodeWwvb, execRecEncodeJjy, execRecEncodeBpc, execRecLoadDcf77,
        execRecLoadWwvb, execRecLoadJjy, execRecLoadBpc, execRecRaw, execRecField, execRecValid, execRecSym,
        execSchedule, execEnvelope, execSample, execRender, recEncode, recLoad60, recLoad120] at h <;>
    refine key _ h (fun u hu => ?_)
  case nop => cases hu; exact .inr (.inl ⟨rfl, rfl⟩)
  case recField f =>
    cases hf : fieldOfCode f with
    | none => simp [hf] at hu
    | some fld =>
      simp only [hf] at hu
      simp only [bind_eq_ok, pure, Except.pure, Except.ok.injEq] at hu
      obtain ⟨_, _, _, _, rfl⟩ := hu
      exact .inr (.inr (.inl ⟨by simp, rfl, by simp, _, _, rfl⟩))
  case render =>
    simp only [bind_eq_ok, pure, Except.pure, Except.ok.injEq] at hu
    obtain ⟨job, hj, rfl⟩ := hu
    exact .inr (.inr (.inr (.inr ⟨rfl, job, hj, rfl⟩)))
  all_goals
    simp only [bind_eq_ok, pure, Except.pure, Except.ok.injEq] at hu
    repeat obtain ⟨_, _, hu⟩ := hu
    first
    | exact .inr (.inr (.inl ⟨by simp, rfl, by simp, _, _, rfl⟩))
    | exact .inr (.inr (.inr (.inl ⟨by simp, rfl, by simp, _, _, rfl⟩)))

end Sys2Proof.Machine
end

