-- ==== Sys2Proof/Laws/Memory.lean ====
section
/-! SUPPORT. The PCM memory: every operation keeps the canonical form, and read after write. -/

namespace Sys2Proof.Machine

/-- The head of a canonical memory lies below everything after it. -/
theorem wf_cons (c : Host.Cell) (m : List Host.Cell) :
    Memory.wf (c :: m) = true ↔ (∀ d ∈ m, c.1 < d.1) ∧ Memory.wf m = true := by
  induction m generalizing c with
  | nil => simp [Memory.wf]
  | cons d m ih =>
    simp only [Memory.wf, Bool.and_eq_true, decide_eq_true_eq, List.mem_cons, forall_eq_or_imp]
    refine ⟨fun ⟨hcd, hd⟩ => ⟨⟨hcd, fun x hx => ?_⟩, hd⟩, fun ⟨⟨hcd, _⟩, hd⟩ => ⟨hcd, hd⟩⟩
    exact lt_trans hcd (((ih d).1 hd).1 x hx)

theorem within_iff (n : Nat) (m : List Host.Cell) : Memory.within n m = true ↔ ∀ c ∈ m, c.1 < n := by
  simp [Memory.within]

/-- A cell of `pcmPut` is the written one or an old one. -/
theorem mem_pcmPut {m : List Host.Cell} {a : Nat} {b : Byte} {c : Host.Cell} (h : c ∈ pcmPut m a b) :
    c = (a, b) ∨ c ∈ m := by
  induction m with
  | nil => simpa [pcmPut] using h
  | cons d m ih =>
    obtain ⟨k, e⟩ := d
    simp only [pcmPut] at h
    split at h
    · simpa using h
    · split at h
      · rcases List.mem_cons.1 h with h | h
        · exact .inl h
        · exact .inr (List.mem_cons_of_mem _ h)
      · rcases List.mem_cons.1 h with h | h
        · exact .inr (h ▸ List.mem_cons_self)
        · rcases ih h with h | h
          · exact .inl h
          · exact .inr (List.mem_cons_of_mem _ h)

/-- One byte's write keeps the canonical form. -/
theorem wf_pcmPut {m : List Host.Cell} (hm : Memory.wf m = true) (a : Nat) (b : Byte) :
    Memory.wf (pcmPut m a b) = true := by
  induction m with
  | nil => simp [pcmPut, Memory.wf]
  | cons d m ih =>
    obtain ⟨k, e⟩ := d
    obtain ⟨hk, hrest⟩ := (wf_cons _ _).1 hm
    simp only [pcmPut]
    split
    · rename_i hlt
      refine (wf_cons _ _).2 ⟨fun d hd => ?_, (wf_cons _ _).2 ⟨hk, hrest⟩⟩
      rcases List.mem_cons.1 hd with rfl | hd
      · exact hlt
      · exact lt_trans hlt (hk d hd)
    · split
      · rename_i heq
        subst heq
        exact (wf_cons _ _).2 ⟨hk, hrest⟩
      · rename_i hnlt hne
        refine (wf_cons _ _).2 ⟨fun d hd => ?_, ih hrest⟩
        rcases mem_pcmPut hd with rfl | hd
        · show k < a
          omega
        · exact hk d hd

/-- A write inside the memory stays inside it. -/
theorem within_pcmPut {n : Nat} {m : List Host.Cell} (hm : Memory.within n m = true) {a : Nat} (ha : a < n)
    (b : Byte) : Memory.within n (pcmPut m a b) = true := by
  refine (within_iff _ _).2 fun c hc => ?_
  rcases mem_pcmPut hc with rfl | hc
  · exact ha
  · exact (within_iff _ _).1 hm c hc

/-- A sample's write keeps the canonical form. -/
theorem wf_pcmWrite16 {m : List Host.Cell} (hm : Memory.wf m = true) (off : Nat) (v : BitVec 16) :
    Memory.wf (pcmWrite16 m off v) = true := by
  simpa [pcmWrite16, sampleCells] using wf_pcmPut (wf_pcmPut hm _ _) _ _

/-- No listed address is at or below `a`, so `a` is unwritten. -/
theorem pcmByte_of_all_lt {m : List Host.Cell} {a : Nat} (h : ∀ d ∈ m, a < d.1) : pcmByte m a = none := by
  induction m with
  | nil => rfl
  | cons d m ih =>
    obtain ⟨k, e⟩ := d
    have hk : a < k := h (k, e) List.mem_cons_self
    have hne : k ≠ a := by omega
    simp [pcmByte, hne, ih fun d hd => h d (List.mem_cons_of_mem _ hd)]

/-- Read after write: the written byte. -/
theorem pcmByte_pcmPut_self (m : List Host.Cell) (a : Nat) (b : Byte) : pcmByte (pcmPut m a b) a = some b := by
  induction m with
  | nil => simp [pcmPut, pcmByte]
  | cons d m ih =>
    obtain ⟨k, e⟩ := d
    simp only [pcmPut]
    split
    · simp [pcmByte]
    · split
      · simp [pcmByte]
      · rename_i _ hne
        have : k ≠ a := fun h => hne h.symm
        simp [pcmByte, this, ih]

/-- Read after write: every other byte as before. -/
theorem pcmByte_pcmPut_ne (m : List Host.Cell) {a a' : Nat} (b : Byte) (h : a' ≠ a) :
    pcmByte (pcmPut m a b) a' = pcmByte m a' := by
  induction m with
  | nil => simp [pcmPut, pcmByte, h.symm]
  | cons d m ih =>
    obtain ⟨k, e⟩ := d
    simp only [pcmPut]
    split
    · simp [pcmByte, h.symm]
    · split
      · rename_i heq
        subst heq
        simp [pcmByte, h.symm]
      · simp [pcmByte, ih]

/-- The bytes below `lo` and above are apart: reading an append of canonical pieces. -/
theorem pcmByte_append (m m' : List Host.Cell) (a : Nat) :
    pcmByte (m ++ m') a = (pcmByte m a).or (pcmByte m' a) := by
  induction m with
  | nil => simp [pcmByte]
  | cons d m ih =>
    obtain ⟨k, e⟩ := d
    by_cases h : k = a <;> simp [pcmByte, h, ih]

/-- Two canonical pieces, the first below the second, are canonical together. -/
theorem wf_append {m m' : List Host.Cell} (hm : Memory.wf m = true) (hm' : Memory.wf m' = true)
    (h : ∀ c ∈ m, ∀ d ∈ m', c.1 < d.1) : Memory.wf (m ++ m') = true := by
  induction m with
  | nil => simpa using hm'
  | cons c m ih =>
    obtain ⟨hc, hm⟩ := (wf_cons _ _).1 hm
    refine (wf_cons _ _).2 ⟨fun d hd => ?_, ih hm fun x hx => h x (List.mem_cons_of_mem _ hx)⟩
    rcases List.mem_append.1 hd with hd | hd
    · exact hc d hd
    · exact h c List.mem_cons_self d hd

theorem wf_filter {m : List Host.Cell} (hm : Memory.wf m = true) (p : Host.Cell → Bool) :
    Memory.wf (m.filter p) = true := by
  induction m with
  | nil => simp [Memory.wf]
  | cons c m ih =>
    obtain ⟨hc, hm⟩ := (wf_cons _ _).1 hm
    by_cases h : p c
    · rw [List.filter_cons_of_pos h]
      exact (wf_cons _ _).2 ⟨fun d hd => hc d (List.mem_filter.1 hd).1, ih hm⟩
    · rw [List.filter_cons_of_neg h]
      exact ih hm

/-- A rendered cell lies in the buffer. -/
theorem mem_renderCells {p : Params} {job : RenderJob} {first count : Nat} {c : Host.Cell}
    (h : c ∈ renderCells p job first count) : 2 * first ≤ c.1 ∧ c.1 < 2 * (first + count) := by
  induction count generalizing first with
  | zero => simp [renderCells] at h
  | succ n ih =>
    rw [renderCells, List.mem_append] at h
    rcases h with h | h
    · simp [sampleCells] at h
      rcases h with rfl | rfl <;> constructor <;> dsimp only <;> omega
    · have := ih h
      omega

/-- The rendered buffer is canonical. -/
theorem wf_renderCells (p : Params) (job : RenderJob) (first count : Nat) :
    Memory.wf (renderCells p job first count) = true := by
  induction count generalizing first with
  | zero => simp [renderCells, Memory.wf]
  | succ n ih =>
    refine wf_append ?_ (ih _) fun c hc d hd => ?_
    · simp [sampleCells, Memory.wf]
    · have := mem_renderCells hd
      simp [sampleCells] at hc
      rcases hc with rfl | rfl <;> (simp; omega)

/-- RENDER's memory is canonical where the memory before it was. -/
theorem wf_renderPcm (p : Params) (job : RenderJob) {m : List Host.Cell} (hm : Memory.wf m = true) :
    Memory.wf (renderPcm p job m) = true := by
  refine wf_append (wf_renderCells ..) (wf_filter hm _) fun c hc d hd => ?_
  have h1 := mem_renderCells hc
  have h2 := (List.mem_filter.1 hd).2
  simp at h2
  omega

/-- The reset memory is canonical. -/
theorem wf_reset : Memory.wf State.reset.pcm = true := rfl

end Sys2Proof.Machine
end

