-- ==== Sys2Proof/Laws/PerInstr.lean ====
section
/-! SUPPORT. A per-instruction family: the encoder sets no reserved bit (30_encoding.md R105). -/

namespace Sys2Proof.Laws.ReservedBits

/-- Bits 15:12 and 63:24 of the command's word are 0 (30_encoding.md R105). -/
def Statement (i : Instr) : Prop := reservedOf (encode i) = 0

theorem nop : Statement .nop := rfl
theorem bcdEnc : Statement .bcdEnc := rfl
theorem bcdDec : Statement .bcdDec := rfl
theorem bcd5Enc : Statement .bcd5Enc := rfl
theorem bcd5Dec : Statement .bcd5Dec := rfl
theorem reverse : Statement .reverse := rfl
theorem parity : Statement .parity := rfl
theorem bits : Statement .bits := rfl
theorem setbits (msb : Bool) : Statement (.setbits msb) := by cases msb <;> rfl
theorem recEncodeDcf77 : Statement .recEncodeDcf77 := rfl
theorem recEncodeWwvb : Statement .recEncodeWwvb := rfl
theorem recEncodeJjy : Statement .recEncodeJjy := rfl
theorem recEncodeBpc : Statement .recEncodeBpc := rfl
theorem recLoadDcf77 (msb : Bool) : Statement (.recLoadDcf77 msb) := by cases msb <;> rfl
theorem recLoadWwvb (msb : Bool) : Statement (.recLoadWwvb msb) := by cases msb <;> rfl
theorem recLoadJjy (msb : Bool) : Statement (.recLoadJjy msb) := by cases msb <;> rfl
theorem recLoadBpc (msb : Bool) : Statement (.recLoadBpc msb) := by cases msb <;> rfl
theorem recRaw (msb : Bool) : Statement (.recRaw msb) := by cases msb <;> rfl
theorem recField (field : BitVec 8) : Statement (.recField field) := by
  revert field
  unfold Statement
  decide
theorem recValid : Statement .recValid := rfl
theorem recSym : Statement .recSym := rfl
theorem schedule : Statement .schedule := rfl
theorem envelope : Statement .envelope := rfl
theorem sample : Statement .sample := rfl
theorem render : Statement .render := rfl

end Sys2Proof.Laws.ReservedBits
end

