-- ==== Sys2Proof/Tests/Slice0.lean ====
section
/-! SUPPORT. Tests. Expected values are the spec's own: words written out from 30_encoding.md R100, and results from the
worked examples of the rules named; the RENDER test's samples are computed by hand from 47_synth.md R358. The witnesses
show, for each statement with hypotheses, a state that meets them. -/

namespace Sys2Proof.Tests
open Sys2Proof.Machine

/-- Parameters with a value everywhere, for tests only. -/
def params : Params where
  pcmBytes    := 16
  allowedWwvb := [60000]
  allowedJjy  := [40000]
  allowedBpc  := [68500]
  jjyMs       := ⟨200, 500, 800⟩
  bpcSymMs    := ⟨100, 200, 300, 400⟩
  bpcMarkerMs := 0
  morseGate   := 1
  morseRule   := .nearest
  indexOrigin := .minute
  sinChoice   := []
  asinChoice  := []

/-- The reset state of a block with those parameters. -/
def fresh : State := { State.reset with params := params }

/-- That block with OPA to OPD written. -/
def ops (a b c d : Word) : State :=
  { fresh with opa := ⟨a, true⟩, opb := ⟨b, true⟩, opc := ⟨c, true⟩, opd := ⟨d, true⟩ }

/-- That block with TIN0 = tin(y, mo, d, h, m) and TIN1 written (30_encoding.md R111). -/
def tins (y mo d h m : Nat) (t1 : Word) : State :=
  { fresh with
    tin0 := ⟨BitVec.ofNat 64 (y + mo * 2 ^ 16 + d * 2 ^ 24 + h * 2 ^ 32 + m * 2 ^ 40), true⟩
    tin1 := ⟨t1, true⟩ }

/-- A state with a frame of a standard. -/
def withFrame (s : State) (std : Std) (f : Frame) : State :=
  { s with frame := f, frameLoWritten := true, frameHiWritten := true, frameTag := ⟨std, true⟩ }

/-- A state with RATE, FREQ, SHAPE, DEPTH and START_SEC written. -/
def configured (s : State) (rate freq shape depth start : Word) : State :=
  { s with
    rate := ⟨rate, true⟩
    freq := ⟨freq, true⟩
    shape := ⟨shape, true⟩
    depth := ⟨depth, true⟩
    startSec := ⟨start, true⟩ }

/-- DCF77's golden frame (42_dcf77.md R201). -/
def golden : Frame := 0x2661412F5320000

/-- The JJY frame of 2025-04-18 16:15 (44_jjy.md R263). -/
def jjyCall : Frame := 0x3040832148

/-- The BPC frame of 2025-04-18 16:30 (45_bpc.md R294). -/
def bpcFrame : Frame := 0x191875B442191875B441191875B440

/-- The state one step after the word is placed. -/
def after (s : State) (w : Nat) : Option State :=
  match step (s.withFetchWord 64 w) with
  | .next t => some t
  | .fault _ => none
  | .refused _ => none

/-- RES0, RES1 and ECODE one step after the word is placed. -/
def results (s : State) (w : Nat) : Option (Word × Word × Option ErrCode) :=
  (after s w).map (fun t => (t.res0.value, t.res1.value, t.status.ecode))

/-- FRAME and ECODE one step after the word is placed. -/
def frameAfter (s : State) (w : Nat) : Option (Frame × FrameTag × Option ErrCode) :=
  (after s w).map (fun t => (t.frame, t.frameTag, t.status.ecode))

/-! Well-formedness. -/

theorem test_wf_refuses_field_0x15 : (Instr.recField 0x15).wf = false := by decide
theorem test_wf_refuses_field_0xFF : (Instr.recField 0xFF).wf = false := by decide
theorem test_wf_admits_field_0x14 : (Instr.recField 0x14).wf = true := by decide
theorem test_encode_of_ill_formed_is_refused : decodeTableWord 64 (encode (.recField 0x15)).toNat = none := by decide

/-! Decoding: words from R100 as OPC | STD << 8 | MSB << 11 | FIELD << 16. -/

theorem test_decode_codec :
    decode 0b00000000 = .ok .nop ∧ decode 0b00000001 = .ok .bcdEnc ∧ decode 0b00000010 = .ok .bcdDec ∧
      decode 0b00000011 = .ok .bcd5Enc ∧ decode 0b00000100 = .ok .bcd5Dec ∧ decode 0b00000101 = .ok .reverse ∧
      decode 0b00000110 = .ok .parity ∧ decode 0b00000111 = .ok .bits ∧
      decode 0b000000001000 = .ok (.setbits false) ∧ decode 0b100000001000 = .ok (.setbits true) := by decide

theorem test_decode_rec_encode :
    decode 0b000000010000 = .ok .recEncodeDcf77 ∧ decode 0b000100010000 = .ok .recEncodeWwvb ∧
      decode 0b001000010000 = .ok .recEncodeJjy ∧ decode 0b001100010000 = .ok .recEncodeBpc := by decide

theorem test_decode_rec_load :
    decode 0b100000010001 = .ok (.recLoadDcf77 true) ∧ decode 0b000100010001 = .ok (.recLoadWwvb false) ∧
      decode 0b101000010001 = .ok (.recLoadJjy true) ∧ decode 0b001100010001 = .ok (.recLoadBpc false) ∧
      decode 0b101100010001 = .ok (.recLoadBpc true) := by decide

theorem test_decode_rec_read :
    decode 0b100000010010 = .ok (.recRaw true) ∧ decode 0b000000010010 = .ok (.recRaw false) ∧
      decode 0b000101000000000000010011 = .ok (.recField 0x14) ∧ decode 0b00010100 = .ok .recValid ∧
      decode 0b00010101 = .ok .recSym := by decide

theorem test_decode_signal :
    decode 0b00100000 = .ok .schedule ∧ decode 0b00100001 = .ok .envelope ∧ decode 0b00100010 = .ok .sample ∧
      decode 0b00110000 = .ok .render := by decide

theorem test_decode_illegal :
    decode 0x09 = .error .unusedOpcode ∧ decode 0x31 = .error .unusedOpcode ∧ decode 0x1000 = .error .reservedBits ∧
      decode 0x8000000000000000 = .error .reservedBits ∧ decode 0x1000013 = .error .reservedBits ∧
      decode 0x101 = .error .stdNotAllowed ∧ decode 0x412 = .error .stdNotAllowed ∧
      decode 0x410 = .error .stdUnused ∧ decode 0x711 = .error .stdUnused ∧
      decode 0x810 = .error .msbNotAllowed ∧ decode 0x10010 = .error .fieldNotAllowed ∧
      decode 0x150013 = .error .fieldUnused := by decide

/-! One step of each command, from the examples of its rule. -/

theorem test_nop : (after (ops 1 2 3 4) 0x00).map (fun t => (statusWord t.status, t.res0.written)) =
    some (0, false) := by decide
theorem test_illegal_word : (after (ops 1 2 3 4) 0x09).map (fun t => statusWord t.status) = some 0x12 := by decide
theorem test_bcd_enc : results (ops 59 0 0 0) 0x01 = some (0x59, 0, none) := by decide
theorem test_bcd_enc_range : results (ops 0x8000000000000000 0 0 0) 0x01 = some (0, 0, some .range) := by decide
theorem test_bcd_dec : results (ops 0x29 0 0 0) 0x02 = some (29, 0, none) := by decide
theorem test_bcd_dec_order : results (ops 0xA99 0 0 0) 0x02 = some (0, 0, some .format) := by decide
theorem test_bcd5_enc : results (ops 366 0 0 0) 0x03 = some (0xCC6, 0, none) := by decide
theorem test_bcd5_enc_unwritten : results fresh 0x03 = some (0, 0, some .uninit) := by decide
theorem test_bcd5_dec : results (ops 0xC6 0 0 0) 0x04 = some (66, 0, none) := by decide
theorem test_bcd5_dec_pad : results (ops 0x10 0 0 0) 0x04 = some (0, 0, some .format) := by decide
theorem test_reverse : results (ops 0x4CAF4828664 60 0 0) 0x05 = some (0x2661412F5320000, 0, none) := by decide
theorem test_reverse_drops_upper_bits : results (ops 0xF0 4 0 0) 0x05 = some (0, 0, none) := by decide
theorem test_parity : results (ops 0x2661412F5320000 21 28 0) 0x06 = some (1, 0, none) := by decide
theorem test_parity_range : results (ops 0 0 65 0) 0x06 = some (0, 0, some .range) := by decide
theorem test_bits : results (ops 0x2661412F5320000 21 0x7F 0) 0x07 = some (0x4A, 0, none) := by decide
theorem test_bits_mask : results (ops 0 0 0x5 0) 0x07 = some (0, 0, some .range) := by decide
theorem test_setbits : results (ops 0 0x60 1 0xFF) 0x808 = some (0xC, 0, none) := by decide
theorem test_setbits_wide_value : results (ops 0 0x100 1 0xFF) 0x08 = some (0, 0, some .range) := by decide

theorem test_encode_dcf77 : frameAfter (tins 1999 10 1 17 29 0x4) 0x10 = some (golden, ⟨.dcf77, true⟩, none) := by decide
theorem test_encode_dcf77_no_such_day : frameAfter (tins 2023 2 29 0 0 0) 0x10 =
    some (0, ⟨.dcf77, false⟩, some .range) := by decide
theorem test_encode_wwvb : frameAfter (tins 2008 3 6 7 30 0) 0x110 =
    some (0x8400518C07000C, ⟨.wwvb, true⟩, none) := by decide
theorem test_encode_wwvb_dut1 : frameAfter (tins 2008 3 6 7 30 0xA000) 0x110 =
    some (0, ⟨.dcf77, false⟩, some .range) := by decide
theorem test_encode_jjy : frameAfter (tins 2025 4 18 16 30 0) 0x210 =
    some (0x1548104083200C, ⟨.jjy, true⟩, none) := by decide
theorem test_encode_jjy_callsign : frameAfter (tins 2025 4 18 16 15 0x2A00000000) 0x210 =
    some (0x54003040832148, ⟨.jjy, true⟩, none) := by decide
set_option maxRecDepth 8000 in
theorem test_encode_bpc : frameAfter (tins 2025 4 18 16 30 0) 0x310 = some (bpcFrame, ⟨.bpc, true⟩, none) := by decide
set_option maxRecDepth 8000 in
theorem test_encode_bpc_morning : frameAfter (tins 2008 3 6 7 5 0) 0x310 =
    some (0x48C901534248C901534148C9015340, ⟨.bpc, true⟩, none) := by decide

/-- The dates 43_wwvb.md R232 checks against the source. -/
theorem test_us_dst : usDst 2008 3 6 = 0 ∧ usDst 2025 4 18 = 3 ∧ usDst 2025 3 9 = 2 ∧ usDst 2025 11 2 = 1 := by decide
/-- The golden frame's weekday is a Friday (42_dcf77.md R200), and 41_records_common.md R187's Sundays. -/
theorem test_calendar : dowIso 1999 10 1 = 5 ∧ nthSunday 2025 3 2 = 9 ∧ nthSunday 2025 11 1 = 2 := by decide

theorem test_load_dcf77_msb0 : frameAfter (ops 0x4CAF4828664 0 0 0) 0x811 = some (golden, ⟨.dcf77, true⟩, none) := by decide
theorem test_load_wwvb_too_wide : frameAfter (ops 0x1000000000000000 0 0 0) 0x111 =
    some (0, ⟨.dcf77, false⟩, some .range) := by decide
theorem test_load_jjy : frameAfter (ops 0x3040832148 0 0 0) 0x211 = some (jjyCall, ⟨.jjy, true⟩, none) := by decide
theorem test_load_bpc : frameAfter (ops 0x1875B441191875B440 0x191875B4421918 0 0) 0x311 =
    some (0x191875B442191875B441191875B440, ⟨.bpc, true⟩, none) := by decide
theorem test_load_bpc_msb0 : frameAfter (ops 0 0 0 0) 0xB11 = some (0, ⟨.dcf77, false⟩, some .unsupported) := by decide

theorem test_raw_msb0 : results (withFrame fresh .dcf77 golden) 0x812 = some (0x4CAF4828664, 0, none) := by decide
theorem test_raw_bpc : results (withFrame fresh .bpc bpcFrame) 0x12 = some (0, 0, some .unsupported) := by decide
theorem test_field_hour : results (withFrame fresh .dcf77 golden) 0x10013 = some (17, 0, none) := by decide
theorem test_field_year_in_callsign_minute : results (withFrame fresh .jjy jjyCall) 0x40013 =
    some (0, 0, some .unsupported) := by decide
theorem test_valid : results (withFrame fresh .dcf77 golden) 0x14 = some (1, 0, none) := by decide
theorem test_valid_bit_28_flipped : results (withFrame fresh .dcf77 (golden ^^^ 0x10000000)) 0x14 =
    some (0, 0, none) := by decide
theorem test_sym : results (withFrame (ops 20 0 0 0) .bpc bpcFrame) 0x15 = some (1, 0, none) := by decide
theorem test_sym_range : results (withFrame (ops 60 0 0 0) .bpc bpcFrame) 0x15 = some (0, 0, some .range) := by decide

theorem test_schedule : results (withFrame (configured (ops 17 0 0 0) 44100 0 0 0 0) .dcf77 golden) 0x20 =
    some (8820, 1, none) := by decide
theorem test_schedule_minute_mark : results (withFrame (configured (ops 59 0 0 0) 44100 0 0 0 0) .dcf77 golden) 0x20 =
    some (0, 3, none) := by decide
theorem test_envelope_low :
    results (withFrame (configured (ops 17 8819 0 0) 44100 0 0 0x3FEB333333333333 0) .dcf77 golden) 0x21 =
      some (0x3FC3333333333334, 0, none) := by decide
theorem test_envelope_full :
    results (withFrame (configured (ops 17 8820 0 0) 44100 0 0 0x3FEB333333333333 0) .dcf77 golden) 0x21 =
      some (0x3FF0000000000000, 0, none) := by decide
theorem test_sample_square : results (configured (ops 3 0x3FF0000000000000 0 0) 2 1 1 0 0) 0x22 =
    some (0xFFFFFFFFFFFF8000, 0, none) := by decide +kernel
theorem test_sample_sine_rounds_up : results (configured (ops 1 0x3FE0000000000000 0 0) 2 1 0 0 0) 0x22 =
    some (16384, 0, none) := by decide +kernel

/-- FREQ / RATE = 1937.5 and n = 472 to 479: pi times 1937.5 n is, for odd n, an odd multiple of pi/2, whose sine is -1, 1,
-1, 1, and a multiple of pi for even n; second 59 of DCF77 has amplitude 1.0. -/
theorem test_render :
    (after (withFrame (configured fresh 8 15500 0 0 59) .dcf77 golden) 0x30).map
        (fun t => (t.pcm.map Prod.snd, t.pcmLen, t.res0.value)) =
      some ([0x00, 0x00, 0x01, 0x80, 0x00, 0x00, 0xFF, 0x7F, 0x00, 0x00, 0x01, 0x80, 0x00, 0x00, 0xFF, 0x7F],
        16, 8) := by decide +kernel
theorem test_render_too_long :
    (after (withFrame (configured fresh 9 15500 0 0 59) .dcf77 golden) 0x30).map
        (fun t => (t.pcm, t.pcmLen, t.status.ecode)) = some ([], 0, some .config) := by decide

/-! Witnesses. -/

/-- A busy state running a word. -/
def busy (w : Word) (es : List Event) : State :=
  { fresh with cmd := ⟨w, true⟩, status := ⟨true, false, false, none⟩, events := es }

/-- A busy RENDER over four written bytes. -/
def busyRender : State :=
  { withFrame (configured (busy 0x30 []) 2 15500 1 0 59) .dcf77 golden with
    pcm := [(0, 1), (1, 2), (2, 3), (3, 4)], pcmLen := 4 }

/-- The state a next outcome holds. -/
def nextOf (o : Host.Outcome State Fault Refusal) : State :=
  match o with
  | .next t => t
  | .fault _ => fresh
  | .refused _ => fresh

theorem witness_ResetAtAnyTime : (busy 0x30 [.reset]).events = .reset :: [] ∧ (busy 0x30 [.reset]).status.busy = true := by
  decide

theorem witness_OnlyResetUnwrites :
    ∃ t, step (busy 0x00 [.commandEnd]) = .next t ∧ ∀ rest, (busy 0x00 [.commandEnd]).events ≠ .reset :: rest :=
  ⟨_, rfl, by intro rest h; simp [busy] at h⟩

theorem witness_RegisterPortAccesses :
    (0x98, RegName.pcmLen) ∈ registerMap ∧ readRegister .opa (ops 7 0 0 0) = some 7 ∧ readRegister .opa fresh = none ∧
      (0xA0 : Nat) < 256 ∧ (0xF8 : Nat) % 8 = 0 := by decide

theorem witness_AccessClasses :
    fresh.status.busy = false ∧ (0x68, RegName.startSec) ∈ registerMap ∧ RegName.startSec ∈ storageRegisters ∧
      (0x00, RegName.id) ∈ registerMap ∧ RegName.id ∈ readOnlyRegisters := by decide

theorem witness_CommandWrite : fresh.status.busy = false ∧ (busy 0 []).status.busy = true := by decide

theorem witness_WritesWhileBusyAreDropped :
    (busy 0 []).status.busy = true ∧ (0x18, RegName.opa) ∈ registerMap ∧ (0x10, RegName.status) ∈ registerMap := by decide

theorem witness_ReadOnlyRegisterWords :
    (withFrame fresh .bpc bpcFrame).frameLoWritten = true ∧ (withFrame fresh .bpc bpcFrame).frameHiWritten = true ∧
      (busyRender.succeeded 1 2).res0.written = true := by decide

theorem witness_PcmReadIsLittleEndian :
    let s : State := { busyRender with status := ⟨false, false, false, none⟩ }
    0 + 4 ≤ s.params.pcmBytes ∧ (s.status.busy = true → decode s.cmd.value ≠ .ok .render) ∧
      (∀ i, i < 4 → (pcmByte s.pcm (0 + i)).isSome = true) ∧ s.params.pcmBytes < 15 + 2 := by decide

theorem witness_UnwrittenPcmReadFaults :
    let s : State := { busyRender with status := ⟨false, false, false, none⟩ }
    3 + 2 ≤ s.params.pcmBytes ∧ (s.status.busy = true → decode s.cmd.value ≠ .ok .render) ∧
      pcmByte s.pcm (3 + 1) = none := by decide

/-- A busy RENDER, the first since reset: four bytes to write, none written. -/
def firstRender : State := { busyRender with pcm := [], pcmLen := 0 }

theorem witness_PcmReadDuringRender :
    busyRender.status.busy = true ∧ decode busyRender.cmd.value = .ok .render ∧
      (∃ t, exec .render busyRender = .next t) ∧ 0 + 4 ≤ busyRender.params.pcmBytes ∧
      ∀ i, i < 4 → (pcmByte busyRender.pcm (0 + i)).isSome = true :=
  ⟨rfl, by decide, ⟨_, rfl⟩, by decide, by decide⟩

/-- Bytes 0 and 1 seen new and byte 2 seen old, in a first RENDER. -/
theorem witness_PcmReadDuringRender_first :
    firstRender.status.busy = true ∧ decode firstRender.cmd.value = .ok .render ∧
      (∃ t, exec .render firstRender = .next t) ∧
      (pcmByte (nextOf (exec .render firstRender)).pcm 0).isSome = true ∧
      (pcmByte (nextOf (exec .render firstRender)).pcm 1).isSome = true ∧
      (0b0011 : BitVec 8).getLsbD 2 = false ∧ pcmByte firstRender.pcm 2 = none :=
  ⟨rfl, by decide, ⟨_, rfl⟩, by decide, by decide, by decide, by decide⟩

theorem witness_StepRunsDecodedCommand :
    (busy 0x13 []).events = [] ∧ (busy 0x13 []).status.busy = true ∧
      decode (busy 0x13 []).cmd.value = .ok (.recField 0) ∧ (busy 0x13 [.commandEnd]).events = .commandEnd :: [] ∧
      ({ fresh with events := [.commandEnd] } : State).status.busy = false ∧
      ({ fresh with events := [.host (.readReg 0 64)] } : State).events = .host (.readReg 0 64) :: [] ∧
      fresh.events = [] ∧ fresh.status.busy = false ∧ WellFormed (.recField 0x14) := by decide

theorem witness_IllegalWordsEndIllegal :
    (busy 0x150013 []).events = [] ∧ (busy 0x150013 []).status.busy = true ∧
      IllegalWord (busy 0x150013 []).cmd.value ∧ IllegalWord 0x8000000000000000 ∧
      (busy 0x150013 [.commandEnd]).events = .commandEnd :: [] :=
  ⟨rfl, rfl, by right; right; right; right; right; right; decide,
    by right; left; exact ⟨63, by decide, by decide⟩, rfl⟩

theorem witness_DecodeEncodeAgree :
    WellFormed (.recField 0x14) ∧ decode 0x140013 = .ok (.recField 0x14) := by decide

theorem witness_FrameChangesOnlyByEncodeOrLoad :
    let s : State := { tins 1999 10 1 17 29 0x4 with cmd := ⟨0x10, true⟩, status := ⟨true, false, false, none⟩ }
    (∃ t, step s = .next t) ∧ (nextOf (step s)).frame ≠ s.frame :=
  ⟨⟨_, rfl⟩, by decide⟩

theorem witness_ErrorEndIsPrecise :
    (∃ t, exec .bcdEnc (ops 256 0 0 0) = .next t) ∧ (nextOf (exec .bcdEnc (ops 256 0 0 0))).status.err = true :=
  ⟨⟨_, rfl⟩, by decide⟩

theorem witness_SuccessfulEnd :
    (nextOf (exec .bcdEnc (ops 255 0 0 0))).status.err = false ∧
      (nextOf (exec .bcdEnc (ops 256 0 0 0))).status.err = true := by decide

theorem witness_EarlyCommandsEndHarmlessly :
    WellFormed .recSym ∧ ¬OperandsWritten .recSym fresh ∧ OperandsWritten .recSym (ops 0 0 0 0) ∧
      needsFrame .recSym = true ∧ (ops 0 0 0 0).frameTag.present = false := by decide

theorem witness_BcdEncResult :
    ¬OperandsWritten .bcdEnc fresh ∧ OperandsWritten .bcdEnc (ops 255 0 0 0) ∧ (ops 255 0 0 0).opa.value.toNat ≤ 255 ∧
      OperandsWritten .bcdEnc (ops 256 0 0 0) ∧ 255 < (ops 256 0 0 0).opa.value.toNat := by decide

theorem witness_BcdDecResult :
    ¬OperandsWritten .bcdDec fresh ∧ OperandsWritten .bcdDec (ops 0x255 0 0 0) ∧
      (ops 0x255 0 0 0).opa.value.toNat = 5 + 16 * 5 + 256 * 2 ∧ 5 + 10 * 5 + 100 * 2 ≤ 255 ∧
      (ops 0x256 0 0 0).opa.value.toNat = 6 + 16 * 5 + 256 * 2 ∧ 255 < 6 + 10 * 5 + 100 * 2 ∧
      (ops 0xA0 0 0 0).opa.value.toNat = 0 + 16 * 10 + 256 * 0 ∧ 2 ^ 12 ≤ (ops 0x1000 0 0 0).opa.value.toNat := by decide

theorem witness_Bcd5EncResult :
    ¬OperandsWritten .bcd5Enc fresh ∧ OperandsWritten .bcd5Enc (ops 999 0 0 0) ∧
      (ops 999 0 0 0).opa.value.toNat ≤ 999 ∧ 999 < (ops 1000 0 0 0).opa.value.toNat := by decide

theorem witness_Bcd5DecResult :
    ¬OperandsWritten .bcd5Dec fresh ∧ OperandsWritten .bcd5Dec (ops 0x2529 0 0 0) ∧
      (ops 0x2529 0 0 0).opa.value.toNat = 9 + 32 * 9 + 1024 * 9 ∧
      (ops 0xA 0 0 0).opa.value.toNat = 10 + 32 * 0 + 1024 * 0 ∧ 2 ^ 15 ≤ (ops 0x8000 0 0 0).opa.value.toNat := by decide

theorem witness_ReverseResult :
    ¬OperandsWritten .reverse fresh ∧ OperandsWritten .reverse (ops 1 64 0 0) ∧ (ops 1 64 0 0).opb.value.toNat ≤ 64 ∧
      64 < (ops 1 65 0 0).opb.value.toNat := by decide

theorem witness_ParityResult :
    ¬OperandsWritten .parity fresh ∧ OperandsWritten .parity (ops 1 64 64 0) ∧
      (ops 1 64 64 0).opb.value.toNat ≤ (ops 1 64 64 0).opc.value.toNat ∧ (ops 1 64 64 0).opc.value.toNat ≤ 64 ∧
      (ops 1 2 1 0).opc.value.toNat < (ops 1 2 1 0).opb.value.toNat ∧ 64 < (ops 1 0 65 0).opc.value.toNat := by decide

theorem witness_BitsResult :
    ¬OperandsWritten .bits fresh ∧ OperandsWritten .bits (ops 1 63 1 0) ∧ (ops 1 63 1 0).opc.value.toNat = 2 ^ 1 - 1 ∧
      (ops 1 63 1 0).opb.value.toNat + 1 ≤ 64 ∧
      (¬∃ w, 1 ≤ w ∧ (ops 1 0 0 0).opc.value.toNat = 2 ^ w - 1 ∧ (ops 1 0 0 0).opb.value.toNat + w ≤ 64) := by
  refine ⟨by decide, by decide, by decide, by decide, ?_⟩
  rintro ⟨w, hw, h, -⟩
  have h1 : 2 ^ 1 ≤ 2 ^ w := Nat.pow_le_pow_right (by decide) hw
  simp [ops] at h
  omega

theorem witness_SetbitsResult :
    ¬OperandsWritten (.setbits true) fresh ∧ OperandsWritten (.setbits true) (ops 0 0xFF 56 0xFF) ∧
      (ops 0 0xFF 56 0xFF).opd.value.toNat = 2 ^ 8 - 1 ∧ (ops 0 0xFF 56 0xFF).opc.value.toNat + 8 ≤ 64 ∧
      (ops 0 0xFF 56 0xFF).opb.value.toNat ≤ (ops 0 0xFF 56 0xFF).opd.value.toNat ∧
      (ops 0 0x100 0 0xFF).opd.value.toNat < (ops 0 0x100 0 0xFF).opb.value.toNat := by decide

theorem witness_CodecRoundTrips :
    (255 : Word).toNat ≤ 255 ∧ (999 : Word).toNat ≤ 999 ∧ (64 : Word).toNat ≤ 64 ∧
      (0x8000000000000001 : Word).toNat < 2 ^ (64 : Word).toNat := by decide

/-- The last legal minute, 9999-12-31 23:59, with every TIN1 flag set. -/
def lastMinute : State := tins 9999 12 31 23 59 0x3F0301911F

/-- The 32nd of a month. -/
def noSuchDay : State := tins 9999 12 32 23 59 0

theorem witness_RecEncode_operands (std : Std) :
    OperandsWritten (recEncodeInstr std) lastMinute ∧ OperandsWritten (recEncodeInstr std) noSuchDay ∧
      ¬OperandsWritten (recEncodeInstr std) fresh := by cases std <;> decide

theorem witness_RecEncode_legal (std : Std) : TimeLegal std lastMinute.tin0.value lastMinute.tin1.value := by
  cases std <;> decide

theorem witness_RecEncode_illegal (std : Std) : ¬TimeLegal std noSuchDay.tin0.value noSuchDay.tin1.value := by
  cases std <;> decide

theorem witness_layout_fields :
    yearBits (tins 9999 12 31 23 59 0).tin0.value = 9999 ∧ monthBits (tins 9999 12 31 23 59 0).tin0.value = 12 ∧
      dayBits (tins 9999 12 31 23 59 0).tin0.value = 31 ∧ hourBits (tins 9999 12 31 23 59 0).tin0.value = 23 ∧
      minuteBits (tins 9999 12 31 23 59 0).tin0.value = 59 := by decide

theorem witness_JjyLayout_callsign :
    TimeLegal .jjy (tins 1 1 1 0 45 0).tin0.value (tins 1 1 1 0 45 0).tin1.value ∧
      minuteBits (tins 1 1 1 0 45 0).tin0.value = 45 := by decide

theorem witness_RecLoadResult (msb : Bool) :
    OperandsWritten (.recLoadJjy msb) (ops 0xFFFFFFFFFFFFFFF 0 0 0) ∧
      (ops 0xFFFFFFFFFFFFFFF 0 0 0).opa.value.toNat < 2 ^ 60 ∧ 2 ^ 60 ≤ (ops 0x1000000000000000 0 0 0).opa.value.toNat ∧
      ¬OperandsWritten (.recLoadDcf77 msb) fresh ∧ ¬OperandsWritten (.recLoadBpc msb) fresh ∧
      OperandsWritten (.recLoadBpc msb) (ops 0 0xFFFFFFFFFFFFFF 0 0) ∧
      (ops 0 0xFFFFFFFFFFFFFF 0 0).opb.value.toNat < 2 ^ 56 ∧ 2 ^ 56 ≤ (ops 0 0x100000000000000 0 0).opb.value.toNat := by
  cases msb <;> decide

theorem witness_RecRawResult :
    fresh.frameTag.present = false ∧ (withFrame fresh .jjy jjyCall).frameTag.present = true ∧
      (withFrame fresh .jjy jjyCall).frameTag.std ≠ .bpc ∧ (withFrame fresh .bpc bpcFrame).frameTag.std = .bpc := by decide

theorem witness_RecSymResult :
    ¬OperandsWritten .recSym fresh ∧ OperandsWritten .recSym (withFrame (ops 59 0 0 0) .bpc bpcFrame) ∧
      (withFrame (ops 59 0 0 0) .bpc bpcFrame).opa.value.toNat ≤ 59 ∧
      59 < (withFrame (ops 60 0 0 0) .bpc bpcFrame).opa.value.toNat ∧ (ops 0 0 0 0).frameTag.present = false := by decide

theorem witness_RecFieldResult :
    fieldResult .jjy jjyCall .callsign = .ok 1 ∧ fieldResult .jjy jjyCall .year = .error .unsupported ∧
      fieldResult .jjy 0x10 .jjySt = .error .format ∧ fieldResult .dcf77 golden .year = .ok 99 := by decide

theorem witness_RecValidResult : FrameValid .wwvb 0 ∧ ¬FrameValid .wwvb 1 := by
  constructor
  · intro i _
    simp
  · intro h
    have h0 := h 0 (by decide)
    revert h0
    decide

theorem witness_CalendarCountsDays :
    1 ≤ daysInMonth 1 1 ∧ 30 < daysInMonth 2024 1 ∧ 29 = daysInMonth 2024 2 ∧ 31 = daysInMonth 9999 12 ∧
      9 = nthSunday 2025 3 2 ∧ nthSunday 2025 3 2 < 10 ∧ 8 < nthSunday 2025 3 2 ∧ 2 = nthSunday 2025 11 1 ∧
      1 < nthSunday 2025 11 1 ∧ nthSunday 2025 11 1 < 3 := by decide

/-- A DCF77 frame at second 59 and RATE at its bounds. -/
theorem witness_ScheduleResult :
    let s := withFrame (configured (ops 59 0 0 0) 4294967295 0 0 0 0) .jjy jjyCall
    ¬OperandsWritten .schedule fresh ∧ OperandsWritten .schedule (configured (ops 0 0 0 0) 1 0 0 0 0) ∧
      (configured (ops 0 0 0 0) 1 0 0 0 0).frameTag.present = false ∧
      OperandsWritten .schedule s ∧ s.frameTag.present = true ∧ s.rate.value.toNat < 2 ^ 32 ∧ s.opa.value.toNat ≤ 59 ∧
      ¬FrameUndecodable s.frameTag.std s.frame ∧ FrameUndecodable .jjy 0x10 := by decide

theorem witness_PrefixFitsItsSecond :
    let s := withFrame (configured (ops 0 0 0 0) 1 0 0 0 0) .wwvb 0
    s.params.wf = true ∧ (nextOf (exec .schedule s)).status.err = false := by decide

theorem witness_EnvelopeResult :
    let s := withFrame (configured (ops 40 0 0 0) 1 0 0 0x3FF0000000000000 0) .jjy jjyCall
    ¬OperandsWritten .envelope fresh ∧ OperandsWritten .envelope s ∧ s.frameTag.present = true ∧
      inUnitInterval s.depth.value = true ∧ s.opb.value.toNat < s.rate.value.toNat ∧
      ¬FrameUndecodable s.frameTag.std s.frame ∧ FrameUndecodable .jjy 0x10 ∧
      inUnitInterval 0x3FF0000000000001 = false ∧ inUnitInterval 0x8000000000000000 = true := by decide

theorem witness_SampleResult :
    let s := configured (ops 0x1FFFFFFFFFFFFF 0x3FF0000000000000 0 0) 4294967295 4294967295 2 0 0
    ¬OperandsWritten .sample fresh ∧ OperandsWritten .sample s ∧ s.rate.value.toNat < 2 ^ 32 ∧
      s.freq.value.toNat < 2 ^ 32 ∧ s.shape.value.toNat ≤ 2 ∧ s.opa.value.toNat < 2 ^ 53 ∧
      inUnitInterval s.opb.value = true ∧ inUnitInterval 0x7FF8000000000000 = false := by decide

theorem witness_SampleAtZeroFrequency :
    let s := configured (ops 5 0x3FE0000000000000 0 0) 1 0 1 0 0
    OperandsWritten .sample s ∧ s.freq.value = 0 ∧ 1 ≤ s.rate.value.toNat ∧ inUnitInterval s.opb.value = true := by decide

theorem witness_SampleRange :
    (nextOf (exec .sample (configured (ops 1 0x3FF0000000000000 0 0) 2 1 0 0 0))).status.err = false := by decide

/-- The largest finite argument and the least positive one. -/
theorem witness_TrigFixedValues :
    f64Finite 0x7FEFFFFFFFFFFFFF = true ∧ f64Unpack 0x7FEFFFFFFFFFFFFF = .fin false (2 ^ 53 - 1) 971 ∧
      f64Unpack 0x0000000000000001 = .fin false 1 (-1074) := by decide

/-- -1/2, inside (-1, 1). -/
theorem witness_half : f64Unpack 0xBFE0000000000000 = .fin true (2 ^ 52) (-53) ∧ |f64Rat 0xBFE0000000000000| < 1 := by
  have h : f64Unpack 0xBFE0000000000000 = .fin true (2 ^ 52) (-53) := by decide
  refine ⟨h, ?_⟩
  simp only [f64Rat, h]
  norm_num

/-- sin(0.5) = 0.47942553860420300027... lies 0.09 ulp below 0x3FDEAEE8744B05F0: the value before that one is a conforming
choice too, 0.91 ulp away, and the value after it is none, 1.09 ulp away (R352, by hand). -/
theorem witness_TrigFixedValues_choice :
    sin64 [] 0x3FE0000000000000 = 0x3FDEAEE8744B05F0 ∧
      sin64 [(0x3FE0000000000000, 0x3FDEAEE8744B05EF)] 0x3FE0000000000000 = 0x3FDEAEE8744B05EF ∧
      sin64 [(0x3FE0000000000000, 0x3FDEAEE8744B05F1)] 0x3FE0000000000000 = 0x3FDEAEE8744B05F0 := by decide +kernel

theorem witness_RoundIsFloorOfHalfAbove : f64Finite 0x3FDFFFFFFFFFFFFF = true ∧ f64RoundToInt 0x3FDFFFFFFFFFFFFF = 0 := by
  decide

theorem witness_OperatorsRoundToNearestEven :
    f64Finite f64Two = true ∧ f64Finite (f64Mul f64Two f64Pi) = true ∧ f64Finite (f64Div f64Two f64Pi) = true ∧
      f64Finite (f64Sub f64Two f64Pi) = true ∧ f64Finite (f64OfNat 9007199254740993) = true := by decide

/-- LOW at d = 1.0 (46_envelope.md R330), and the one zero difference that is -0.0 (IEEE-754). -/
theorem test_zero_differences :
    f64Sub f64One f64One = 0 ∧
      f64Sub 0x8000000000000000 f64Zero = 0x8000000000000000 ∧ f64Sub f64Zero 0x8000000000000000 = 0 := by decide

/-- "Both -0.0 and +0.0 are legal" (10_state.md R43); 1.0 is, the value after it, the one before -0.0 and a NaN are not. -/
theorem test_unit_interval :
    inUnitInterval f64Zero = true ∧ inUnitInterval 0x8000000000000000 = true ∧ inUnitInterval f64One = true ∧
      inUnitInterval 0x3FF0000000000001 = false ∧ inUnitInterval 0x8000000000000001 = false ∧
      inUnitInterval f64Nan = false := by decide

/-- arcsin(2^-200) exceeds 2^-200 by about 2^-602: the value one spacing above is within 1 ulp, the one two above is not. -/
theorem test_asin_power_of_two :
    withinOneUlp (f64Mag f64HalfPi) (asinEnclosure false (2 ^ 52) (-252)) 0x3370000000000001 = true ∧
      withinOneUlp (f64Mag f64HalfPi) (asinEnclosure false (2 ^ 52) (-252)) 0x3370000000000002 = false := by decide +kernel

/-- A host read of RES0 right after reset goes on with a free value (10_state.md R33), a second one returns the same
(20_memory.md R80), and one of FRAME_HI has bits 63 to 56 clear (R46). -/
theorem test_unwritten_reads :
    (nextOf (hostAccess (.readReg 0x70 64) fresh)).readData =
        some (Config.unspecifiedContents 0 0x70 &&& 0xFFFFFFFFFFFFFFFF) ∧
      hostAccess (.readReg 0x70 64) (nextOf (hostAccess (.readReg 0x70 64) fresh)) =
        hostAccess (.readReg 0x70 64) fresh ∧
      (nextOf (hostAccess (.readReg 0x88 64) fresh)).readData =
        some (Config.unspecifiedContents 0 0x88 &&& 0x00FFFFFFFFFFFFFF) := ⟨rfl, rfl, rfl⟩

theorem witness_RenderResult :
    OperandsWritten .render busyRender ∧ busyRender.frameTag.present = true ∧ RenderConfigLegal busyRender ∧
      ¬FrameUndecodable busyRender.frameTag.std busyRender.frame := by decide

theorem witness_RenderErrors :
    ¬OperandsWritten .render fresh ∧ ¬RenderConfigLegal (withFrame (configured fresh 9 15500 0 0 59) .dcf77 golden) ∧
      ¬RenderConfigLegal (withFrame (configured fresh 8 15000 0 0 59) .dcf77 golden) ∧
      RenderConfigLegal (withFrame (configured fresh 8 40000 0 0 59) .jjy 0x10) ∧ FrameUndecodable .jjy 0x10 := by decide

theorem witness_RenderEqualsEnvelopeThenSample :
    (nextOf (exec .render busyRender)).status.err = false ∧ busyRender.freq.value.toNat < 2 ^ 32 ∧
      1 < busyRender.rate.value.toNat * (60 - busyRender.startSec.value.toNat) := by decide

theorem witness_RenderIsItsLoopOfWrites : Memory.wf busyRender.pcm = true := by decide

theorem witness_EnclosuresHoldTheRealFunctions :
    f64Unpack 0x7FEFFFFFFFFFFFFF = .fin false (2 ^ 53 - 1) 971 ∧ f64Unpack 0xBFE0000000000000 = .fin true (2 ^ 52) (-53) ∧
      |f64Rat 0xBFE0000000000000| < 1 := ⟨by decide, witness_half⟩

theorem witness_StepKeepsInvariant : busyRender.Inv ∧ ∃ t, step busyRender = .next t :=
  ⟨⟨by decide, by decide, by decide, by decide, by decide, by decide, by decide, by decide, by decide⟩, ⟨_, rfl⟩⟩

end Sys2Proof.Tests
end

section
/-! PROOFS. What a finite binary64 pattern is worth (notes/assumptions/14): its low 63 bits count
units of 2^-1074, and the count is strictly increasing, so that neighbouring patterns are neighbouring values. -/

namespace Sys2Proof.Proofs

open Sys2Proof.Machine

/-- The factor a sign bit stands for. -/
def f64Sign (neg : Bool) : ℚ := if neg then -1 else 1

@[simp] theorem f64Sign_mul_self (neg : Bool) : f64Sign neg * f64Sign neg = 1 := by cases neg <;> norm_num [f64Sign]

@[simp] theorem abs_f64Sign (neg : Bool) : |f64Sign neg| = 1 := by cases neg <;> norm_num [f64Sign]

theorem f64Sign_bne (s t : Bool) : f64Sign (s != t) = f64Sign s * f64Sign t := by
  cases s <;> cases t <;> norm_num [f64Sign]

theorem f64Sign_ne_zero (neg : Bool) : f64Sign neg ≠ 0 := by cases neg <;> norm_num [f64Sign]

/-- The value of a finite pattern's low 63 bits, in units of the least positive value 2^-1074. -/
def f64Units (mag : Nat) : Nat := if mag < 2 ^ 52 then mag else (2 ^ 52 + mag % 2 ^ 52) * 2 ^ (mag / 2 ^ 52 - 1)

/-- Whether or not a rounding carries into the next binade, the pattern is its value (`f64Round`'s packing). -/
theorem f64Units_binade {E q : Nat} (hq : q ≤ 2 ^ 53) (hE : E = 0 ∨ 2 ^ 52 ≤ q) :
    f64Units (E * 2 ^ 52 + q) = q * 2 ^ E := by
  unfold f64Units
  rcases lt_or_ge q (2 ^ 52) with hlow | hlow
  · obtain rfl : E = 0 := hE.resolve_right (by omega)
    rw [if_pos (by omega)]
    simp
  rw [if_neg (by omega)]
  rcases hq.lt_or_eq with hq | rfl
  · rw [show (E * 2 ^ 52 + q) % 2 ^ 52 = q - 2 ^ 52 by omega, show (E * 2 ^ 52 + q) / 2 ^ 52 - 1 = E by omega,
      Nat.add_sub_cancel' hlow]
  · rw [show (E * 2 ^ 52 + 2 ^ 53) % 2 ^ 52 = 0 by omega, show (E * 2 ^ 52 + 2 ^ 53) / 2 ^ 52 - 1 = E + 1 by omega,
      pow_succ]
    ring

/-- Every magnitude is q units of its binade. -/
theorem exists_binade (mag : Nat) :
    ∃ E q, q < 2 ^ 53 ∧ (E = 0 ∨ 2 ^ 52 ≤ q) ∧ mag = E * 2 ^ 52 + q := by
  rcases lt_or_ge mag (2 ^ 52) with h | h
  · exact ⟨0, mag, by omega, .inl rfl, by omega⟩
  · exact ⟨mag / 2 ^ 52 - 1, 2 ^ 52 + mag % 2 ^ 52, by omega, .inr (by omega), by omega⟩

theorem f64Units_strictMono : StrictMono f64Units := by
  refine strictMono_nat_of_lt_succ fun mag => ?_
  obtain ⟨E, q, hq, hE, rfl⟩ := exists_binade mag
  rw [add_assoc, f64Units_binade hq.le hE, f64Units_binade hq (by omega)]
  exact Nat.mul_lt_mul_of_pos_right q.lt_succ_self (by positivity)

theorem f64Units_eq_zero {mag : Nat} : f64Units mag = 0 ↔ mag = 0 :=
  f64Units_strictMono.injective.eq_iff' rfl

theorem f64Mag_lt (x : Word) : f64Mag x < 2 ^ 63 := Nat.mod_lt _ (by decide)

theorem f64Signed_toNat {mag : Nat} (h : mag < 2 ^ 63) (neg : Bool) :
    (f64Signed neg mag).toNat = mag + if neg then 2 ^ 63 else 0 := by
  rw [f64Signed, BitVec.toNat_ofNat]
  cases neg <;> simp <;> omega

theorem f64Mag_f64Signed {mag : Nat} (h : mag < 2 ^ 63) (neg : Bool) : f64Mag (f64Signed neg mag) = mag := by
  rw [f64Mag, f64Signed_toNat h]
  cases neg <;> simp <;> omega

theorem sign_f64Signed {mag : Nat} (h : mag < 2 ^ 63) (neg : Bool) : (f64Signed neg mag).getLsbD 63 = neg := by
  rw [BitVec.getLsbD, Nat.testBit_eq_decide_div_mod_eq, f64Signed_toNat h]
  cases neg <;> simp <;> omega

theorem f64Signed_sign_mag (x : Word) : f64Signed (x.getLsbD 63) (f64Mag x) = x := by
  apply BitVec.eq_of_toNat_eq
  rw [f64Signed_toNat (f64Mag_lt x), BitVec.getLsbD, Nat.testBit_eq_decide_div_mod_eq, f64Mag]
  have := x.isLt
  simp only [decide_eq_true_eq]
  split <;> omega

/-- What a pattern below infinity unpacks to. -/
theorem f64Unpack_of_mag_lt {x : Word} (h : f64Mag x < f64InfMag) :
    ∃ m e, f64Unpack x = .fin (x.getLsbD 63) m e ∧ (m : ℚ) * 2 ^ e = f64Units (f64Mag x) / 2 ^ 1074 := by
  have hex : x.toNat / 2 ^ 52 % 2 ^ 11 = f64Mag x / 2 ^ 52 := by rw [f64Mag]; omega
  have hfr : x.toNat % 2 ^ 52 = f64Mag x % 2 ^ 52 := by rw [f64Mag]; omega
  have hfin : f64Mag x / 2 ^ 52 ≠ 2047 := by rw [f64InfMag] at h; omega
  simp only [f64Unpack, hex, hfr, if_neg hfin]
  by_cases hsub : f64Mag x / 2 ^ 52 = 0
  · have hlow : f64Mag x < 2 ^ 52 := by omega
    rw [if_pos hsub]
    refine ⟨_, _, rfl, ?_⟩
    rw [f64Units, if_pos hlow, Nat.mod_eq_of_lt hlow, div_eq_mul_inv, zpow_neg, zpow_ofNat]
  · rw [if_neg hsub]
    refine ⟨_, _, rfl, ?_⟩
    obtain ⟨E, hE⟩ : ∃ E, f64Mag x / 2 ^ 52 = E + 1 := ⟨_, (Nat.succ_pred hsub).symm⟩
    rw [f64Units, if_neg (by omega), hE, Nat.add_sub_cancel, eq_div_iff (by positivity)]
    rw [show ((E + 1 : ℕ) : ℤ) - 1075 = (E : ℤ) - (1074 : ℕ) by push_cast; ring, zpow_sub₀ two_ne_zero, zpow_natCast,
      zpow_natCast]
    push_cast
    rw [mul_assoc, div_mul_cancel₀ _ (by positivity)]

theorem f64Finite_iff (x : Word) : f64Finite x = true ↔ f64Mag x < f64InfMag := by
  constructor
  · intro h
    by_contra hmag
    have hex : x.toNat / 2 ^ 52 % 2 ^ 11 = 2047 := by
      have := f64Mag_lt x
      rw [f64InfMag] at hmag
      rw [f64Mag] at *
      omega
    simp only [f64Finite, f64Unpack, hex, if_true] at h
    by_cases hfr : x.toNat % 2 ^ 52 = 0
    · simp only [if_pos hfr, reduceCtorEq] at h
    · simp only [if_neg hfr, reduceCtorEq] at h
  · intro h
    obtain ⟨m, e, hx, -⟩ := f64Unpack_of_mag_lt h
    rw [f64Finite, hx]

/-- A finite pattern unpacked: its sign bit, and its exact value. -/
theorem f64Unpack_of_finite {x : Word} (h : f64Finite x = true) :
    ∃ m e, f64Unpack x = .fin (x.getLsbD 63) m e ∧ f64Rat x = f64Sign (x.getLsbD 63) * (m * 2 ^ e) := by
  obtain ⟨m, e, hx, -⟩ := f64Unpack_of_mag_lt ((f64Finite_iff x).mp h)
  exact ⟨m, e, hx, by rw [f64Rat, hx, ← mul_assoc]; rfl⟩

theorem f64Rat_of_finite {x : Word} (h : f64Finite x = true) :
    f64Rat x = f64Sign (x.getLsbD 63) * (f64Units (f64Mag x) / 2 ^ 1074) := by
  obtain ⟨m, e, hx, hval⟩ := f64Unpack_of_mag_lt ((f64Finite_iff x).mp h)
  rw [← hval, f64Rat, hx, ← mul_assoc]; rfl

theorem f64Rat_eq_zero {x : Word} (h : f64Finite x = true) : f64Rat x = 0 ↔ f64Mag x = 0 := by
  rw [f64Rat_of_finite h, ← f64Units_eq_zero]
  simp [f64Sign_ne_zero]

theorem f64Finite_f64Signed {mag : Nat} (h : mag < f64InfMag) (neg : Bool) : f64Finite (f64Signed neg mag) = true := by
  rw [f64Finite_iff, f64Mag_f64Signed (h.trans (by decide))]
  exact h

theorem f64Rat_f64Signed {mag : Nat} (h : mag < f64InfMag) (neg : Bool) :
    f64Rat (f64Signed neg mag) = f64Sign neg * (f64Units mag / 2 ^ 1074) := by
  have h63 : mag < 2 ^ 63 := h.trans (by decide)
  rw [f64Rat_of_finite (f64Finite_f64Signed h neg), sign_f64Signed h63, f64Mag_f64Signed h63]

theorem f64Unpack_mantissa_eq_zero {x : Word} {neg : Bool} {m : Nat} {e : Int} (h : f64Unpack x = .fin neg m e) :
    m = 0 ↔ f64Rat x = 0 := by
  have hexp : (2 : ℚ) ^ e ≠ 0 := by positivity
  rw [f64Rat, h]
  cases neg <;> simp [hexp]

end Sys2Proof.Proofs
end

section
/-! PROOFS. One rounding to nearest-even (00_scope.md R13): `f64Round` finds the binade of the exact quotient, and rounds to
one of the two patterns around it. -/

namespace Sys2Proof.Proofs

open Sys2Proof.Machine

/-- The integer q' is q + r rounded to nearest, ties to even, for r in [0, 1). -/
def IsNearestEvenInt (q : Nat) (r : ℚ) (q' : Nat) : Prop :=
  (q' = q ∧ 2 * r ≤ 1 ∨ q' = q + 1 ∧ 1 ≤ 2 * r) ∧ (2 * r = 1 → q' % 2 = 0)

/-- The rational V, in units of 2^-1074, is q + r units of 2^E, where q has 53 bits or, below the normal range, fewer; and
q' is q + r rounded to nearest-even. -/
structure IsRounding (V : ℚ) (E q : Nat) (r : ℚ) (q' : Nat) : Prop where
  value : V = (q + r) * 2 ^ E
  rest_nonneg : 0 ≤ r
  rest_lt_one : r < 1
  carry : q < 2 ^ 53
  normal : E = 0 ∨ 2 ^ 52 ≤ q
  nearest : IsNearestEvenInt q r q'

theorem two_zpow_eq_div (k : ℤ) : (2 : ℚ) ^ k = 2 ^ k.toNat / 2 ^ (-k).toNat := by
  conv_lhs => rw [← Int.toNat_sub_toNat_neg k, zpow_sub₀ two_ne_zero, zpow_natCast, zpow_natCast]

/-- `f64Round`'s floor of the binary logarithm of num / den. -/
def quotientLog (num den : Nat) : Int :=
  let guess : Int := (Nat.log2 num : Int) - Nat.log2 den
  if num * 2 ^ (-guess).toNat < den * 2 ^ guess.toNat then guess - 1 else guess

theorem scaled_lt_iff {num den : Nat} (hd : den ≠ 0) (k : ℤ) :
    num * 2 ^ (-k).toNat < den * 2 ^ k.toNat ↔ (num / den : ℚ) < 2 ^ k := by
  have hd' : (0 : ℚ) < den := by positivity
  rw [two_zpow_eq_div, div_lt_div_iff₀ hd' (by positivity), mul_comm ((2 : ℚ) ^ k.toNat)]
  exact_mod_cast Iff.rfl

theorem two_zpow_log2_le {n : Nat} (hn : n ≠ 0) : (2 : ℚ) ^ (n.log2 : ℤ) ≤ n := by
  exact_mod_cast Nat.log2_self_le hn

theorem lt_two_zpow_log2 (n : Nat) : (n : ℚ) < 2 ^ ((n.log2 : ℤ) + 1) := by
  exact_mod_cast Nat.lt_log2_self

theorem quotientLog_spec {num den : Nat} (hn : num ≠ 0) (hd : den ≠ 0) :
    (2 : ℚ) ^ quotientLog num den ≤ num / den ∧ (num / den : ℚ) < 2 ^ (quotientLog num den + 1) := by
  have hd' : (0 : ℚ) < den := by positivity
  have hlow : (2 : ℚ) ^ ((num.log2 : ℤ) - den.log2 - 1) ≤ num / den := by
    rw [le_div_iff₀ hd']
    calc (2 : ℚ) ^ ((num.log2 : ℤ) - den.log2 - 1) * den
        ≤ 2 ^ ((num.log2 : ℤ) - den.log2 - 1) * 2 ^ ((den.log2 : ℤ) + 1) := by
          gcongr; exact (lt_two_zpow_log2 den).le
      _ = 2 ^ (num.log2 : ℤ) := by rw [← zpow_add₀ two_ne_zero]; congr 1; ring
      _ ≤ num := two_zpow_log2_le hn
  have hhigh : (num / den : ℚ) < 2 ^ ((num.log2 : ℤ) - den.log2 + 1) := by
    rw [div_lt_iff₀ hd']
    calc (num : ℚ) < 2 ^ ((num.log2 : ℤ) + 1) := lt_two_zpow_log2 num
      _ = 2 ^ ((num.log2 : ℤ) - den.log2 + 1) * 2 ^ (den.log2 : ℤ) := by
          rw [← zpow_add₀ two_ne_zero]; congr 1; ring
      _ ≤ 2 ^ ((num.log2 : ℤ) - den.log2 + 1) * den := by gcongr; exact two_zpow_log2_le hd
  simp only [quotientLog, scaled_lt_iff hd]
  split
  next h => exact ⟨hlow, by rwa [sub_add_cancel]⟩
  next h => exact ⟨not_lt.mp h, hhigh⟩

/-- The exponent of the last place `f64Round` keeps. -/
def lastPlace (num den : Nat) : Int := max (quotientLog num den - 52) (-1074)

/-- `f64Round`'s step to an integer: q plus a rest that compares with 1/2 as given, to nearest, ties to even. -/
def roundRest (q : Nat) : Ordering → Nat
  | .lt => q
  | .eq => q + q % 2
  | .gt => q + 1

theorem roundRest_nearest (q : Nat) (r : ℚ) : IsNearestEvenInt q r (roundRest q (compare (2 * r) 1)) := by
  rcases lt_trichotomy (2 * r) 1 with h | h | h
  · rw [compare_lt_iff_lt.mpr h]
    exact ⟨.inl ⟨rfl, h.le⟩, fun htie => absurd htie h.ne⟩
  · rw [compare_eq_iff_eq.mpr h, IsNearestEvenInt, roundRest]
    refine ⟨?_, fun _ => by omega⟩
    rcases Nat.mod_two_eq_zero_or_one q with hq | hq
    · exact .inl ⟨by omega, h.le⟩
    · exact .inr ⟨by omega, h.ge⟩
  · rw [compare_gt_iff_gt.mpr h]
    exact ⟨.inr ⟨rfl, h.le⟩, fun htie => absurd htie h.ne'⟩

theorem f64Round_zero (neg : Bool) (den : Nat) : f64Round neg 0 den = f64Signed neg 0 := rfl

theorem f64Round_eq (neg : Bool) {num : Nat} (hn : num ≠ 0) (den : Nat) :
    f64Round neg num den = f64Signed neg (min f64InfMag
      ((lastPlace num den + 1074).toNat * 2 ^ 52 + roundRest (f64ScaledDiv num den (-lastPlace num den)).1
        (f64ScaledDiv num den (-lastPlace num den)).2)) := by
  rw [f64Round, if_neg hn]
  rfl

/-- What the quotient and the comparison of `f64ScaledDiv` say of the exact rational. -/
theorem f64ScaledDiv_spec (num : Nat) {den : Nat} (hd : den ≠ 0) (k : Int) :
    ∃ r : ℚ, 0 ≤ r ∧ r < 1 ∧ (num / den * 2 ^ k : ℚ) = (f64ScaledDiv num den k).1 + r ∧
      (f64ScaledDiv num den k).2 = compare (2 * r) 1 := by
  set n := num * 2 ^ k.toNat with hn
  set d := den * 2 ^ (-k).toNat with hdd
  have hd0 : 0 < d := by positivity
  have hdq : (0 : ℚ) < d := by exact_mod_cast hd0
  refine ⟨(n % d : ℕ) / d, by positivity, ?_, ?_, ?_⟩
  · rw [div_lt_one hdq]
    exact_mod_cast Nat.mod_lt n hd0
  · have hsplit : (n : ℚ) = d * (n / d : ℕ) + (n % d : ℕ) := by exact_mod_cast (Nat.div_add_mod n d).symm
    have hq : (num / den * 2 ^ k : ℚ) = n / d := by
      rw [two_zpow_eq_div, hn, hdd]
      push_cast
      rw [div_mul_div_comm]
    rw [hq, hsplit, add_div, mul_div_cancel_left₀ _ hdq.ne']
    rfl
  · change compare (2 * (n % d)) d = _
    rw [← mul_div_assoc]
    rcases lt_trichotomy (2 * (n % d)) d with h | h | h
    · rw [compare_lt_iff_lt.mpr h, eq_comm, compare_lt_iff_lt, div_lt_one hdq]
      exact_mod_cast h
    · rw [compare_eq_iff_eq.mpr h, eq_comm, compare_eq_iff_eq, div_eq_one_iff_eq hdq.ne']
      exact_mod_cast h
    · rw [compare_gt_iff_gt.mpr h, eq_comm, compare_gt_iff_gt]
      refine (one_lt_div hdq).mpr ?_
      exact_mod_cast h

/-- The quotient at the last place has 53 bits, or fewer where the last place is the subnormal one. -/
theorem quotient_at_lastPlace {num den q : Nat} {r : ℚ} (hn : num ≠ 0) (hd : den ≠ 0) (hr0 : 0 ≤ r) (hr1 : r < 1)
    (hquot : (num / den * 2 ^ (-lastPlace num den) : ℚ) = q + r) :
    q < 2 ^ 53 ∧ (lastPlace num den = -1074 ∨ 2 ^ 52 ≤ q) := by
  obtain ⟨hlogLow, hlogHigh⟩ := quotientLog_spec hn hd
  have hplace : lastPlace num den = max (quotientLog num den - 52) (-1074) := rfl
  generalize lastPlace num den = e at *
  generalize quotientLog num den = lg at *
  constructor
  · have : (q : ℚ) < 2 ^ (53 : ℤ) :=
      calc (q : ℚ) ≤ q + r := le_add_of_nonneg_right hr0
        _ = num / den * 2 ^ (-e) := hquot.symm
        _ < 2 ^ (lg + 1) * 2 ^ (-e) := by gcongr
        _ = 2 ^ (lg + 1 - e) := by rw [← zpow_add₀ two_ne_zero, sub_eq_add_neg]
        _ ≤ 2 ^ (53 : ℤ) := zpow_le_zpow_right₀ one_le_two (by omega)
    exact_mod_cast this
  · refine or_iff_not_imp_left.mpr fun he => ?_
    have : (2 : ℚ) ^ (52 : ℤ) < (q + 1 : ℕ) :=
      calc (2 : ℚ) ^ (52 : ℤ) = 2 ^ lg * 2 ^ (-e) := by rw [← zpow_add₀ two_ne_zero]; congr 1; omega
        _ ≤ num / den * 2 ^ (-e) := by gcongr
        _ < (q + 1 : ℕ) := by rw [hquot]; push_cast; gcongr
    exact Nat.le_of_lt_succ (by exact_mod_cast this)

/-- `f64Round` is one rounding of the exact quotient, cut off at infinity. -/
theorem f64Round_isRounding (neg : Bool) (num : Nat) {den : Nat} (hd : den ≠ 0) :
    ∃ E q r q', IsRounding (num / den * 2 ^ 1074) E q r q' ∧
      f64Round neg num den = f64Signed neg (min f64InfMag (E * 2 ^ 52 + q')) := by
  rcases eq_or_ne num 0 with rfl | hn
  · exact ⟨0, 0, 0, 0, ⟨by simp, le_rfl, one_pos, by decide, .inl rfl, .inl ⟨rfl, by simp⟩, fun _ => rfl⟩,
      f64Round_zero neg den⟩
  obtain ⟨r, hr0, hr1, hquot, hcmp⟩ := f64ScaledDiv_spec num hd (-lastPlace num den)
  obtain ⟨hcarry, hnormal⟩ := quotient_at_lastPlace hn hd hr0 hr1 hquot
  obtain ⟨E, hE⟩ : ∃ E : ℕ, lastPlace num den + 1074 = E :=
    Int.eq_ofNat_of_zero_le (neg_le_iff_add_nonneg.mp (le_max_right _ _))
  refine ⟨E, _, r, _, ⟨?_, hr0, hr1, hcarry, hnormal.imp_left (by omega), roundRest_nearest _ r⟩, ?_⟩
  · rw [← hquot, mul_assoc, ← zpow_natCast, ← zpow_natCast _ E, ← zpow_add₀ two_ne_zero, ← hE]
    congr 2
    push_cast
    ring
  · rw [f64Round_eq neg hn, hE, Int.toNat_natCast, hcmp]

/-- A + r u in the gap from A to A + u, y the end of the gap nearest to it, and w outside the gap. -/
theorem abs_sub_le_of_outside_gap {A u r y w : ℚ} (hu : 0 < u) (hr0 : 0 ≤ r) (hr1 : r < 1)
    (hy : y = A ∧ 2 * r ≤ 1 ∨ y = A + u ∧ 1 ≤ 2 * r) (hw : w ≤ A ∨ A + u ≤ w) :
    |y - (A + r * u)| ≤ |w - (A + r * u)| ∧ (|y - (A + r * u)| = |w - (A + r * u)| → w ≠ y → 2 * r = 1) := by
  have hlow : 0 ≤ r * u := by positivity
  have hhigh : r * u < u := mul_lt_of_lt_one_left hu hr1
  have hwdist : |w - (A + r * u)| = A + r * u - w ∧ w ≤ A ∨ |w - (A + r * u)| = w - (A + r * u) ∧ A + u ≤ w := by
    rcases hw with hw | hw
    · exact .inl ⟨by rw [abs_sub_comm, abs_of_nonneg (by linarith)], hw⟩
    · exact .inr ⟨abs_of_nonneg (by linarith), hw⟩
  have htie : 2 * (r * u) = u → 2 * r = 1 := fun h => mul_right_cancel₀ hu.ne' (by linarith)
  rcases hy with ⟨rfl, hhalf⟩ | ⟨rfl, hhalf⟩
  · have hydist : |y - (y + r * u)| = r * u := by rw [abs_sub_comm, add_sub_cancel_left, abs_of_nonneg hlow]
    have hnear : 2 * r * u ≤ u := mul_le_of_le_one_left hu.le hhalf
    rcases hwdist with ⟨hwdist, hw⟩ | ⟨hwdist, hw⟩ <;> rw [hwdist, hydist] <;> refine ⟨by linarith, fun heq hne => ?_⟩
    · exact absurd (by linarith) hne
    · exact htie (by linarith)
  · have hydist : |A + u - (A + r * u)| = u - r * u := by rw [abs_of_nonneg (by linarith)]; ring
    have hnear : u ≤ 2 * r * u := le_mul_of_one_le_left hu.le hhalf
    rcases hwdist with ⟨hwdist, hw⟩ | ⟨hwdist, hw⟩ <;> rw [hwdist, hydist] <;> refine ⟨by linarith, fun heq hne => ?_⟩
    · exact htie (by linarith)
    · exact absurd (by linarith) hne

/-- No finite value lies strictly between neighbouring magnitudes of the sign of the value rounded. -/
theorem f64Rat_outside_gap {z : Word} (hz : f64Finite z = true) (neg : Bool) (mag : Nat) :
    f64Sign neg * f64Rat z * 2 ^ 1074 ≤ f64Units mag ∨ (f64Units (mag + 1) : ℚ) ≤ f64Sign neg * f64Rat z * 2 ^ 1074 := by
  have hscaled : f64Sign neg * f64Rat z * 2 ^ 1074 = f64Sign neg * f64Sign (z.getLsbD 63) * f64Units (f64Mag z) := by
    rw [f64Rat_of_finite hz, mul_assoc, mul_assoc, div_mul_cancel₀ _ (by positivity), mul_assoc]
  rw [hscaled, ← f64Sign_bne]
  cases hsign : neg != z.getLsbD 63 with
  | true =>
    left
    have : (0 : ℚ) ≤ f64Units (f64Mag z) := Nat.cast_nonneg _
    have : (0 : ℚ) ≤ f64Units mag := Nat.cast_nonneg _
    simp only [f64Sign, if_true]
    linarith
  | false =>
    simp only [f64Sign, Bool.false_eq_true, if_false, one_mul, Nat.cast_le, f64Units_strictMono.le_iff_le]
    omega

theorem abs_sub_scaled (neg : Bool) (x V : ℚ) :
    |x - f64Sign neg * (V / 2 ^ 1074)| = |f64Sign neg * x * 2 ^ 1074 - V| / 2 ^ 1074 := by
  have hpos : (0 : ℚ) < 2 ^ 1074 := by positivity
  generalize (2 : ℚ) ^ 1074 = U at *
  have : f64Sign neg * x * U - V = f64Sign neg * U * (x - f64Sign neg * (V / U)) := by
    have := f64Sign_mul_self neg
    field_simp
    linear_combination V * this
  rw [this, abs_mul, abs_mul, abs_f64Sign, one_mul, abs_of_pos hpos, mul_div_cancel_left₀ _ hpos.ne']

/-- The two finite magnitudes around the value rounded. -/
theorem IsRounding.f64Units_ends {V r : ℚ} {E q q' : Nat} (h : IsRounding V E q r q') :
    (f64Units (E * 2 ^ 52 + q) : ℚ) = q * 2 ^ E ∧ (f64Units (E * 2 ^ 52 + (q + 1)) : ℚ) = q * 2 ^ E + 2 ^ E := by
  rw [f64Units_binade h.carry.le h.normal, f64Units_binade h.carry (h.normal.imp_right Nat.le_succ_of_le)]
  push_cast
  exact ⟨rfl, by ring⟩

/-- A finite rounding is a nearest value, and the even one of two. -/
theorem IsRounding.nearestEven {V r : ℚ} {E q q' : Nat} (h : IsRounding V E q r q')
    (hfin : E * 2 ^ 52 + q' < f64InfMag) (neg : Bool) :
    NearestEven (f64Sign neg * (V / 2 ^ 1074)) (f64Signed neg (E * 2 ^ 52 + q')) := by
  obtain ⟨hlow, hhigh⟩ := h.f64Units_ends
  obtain ⟨hV, hr0, hr1, -, -, hnear, htie⟩ := h
  rw [add_mul] at hV
  have hU : (0 : ℚ) < 2 ^ 1074 := by positivity
  set y := f64Signed neg (E * 2 ^ 52 + q') with hydef
  have hy : f64Sign neg * f64Rat y * 2 ^ 1074 = f64Units (E * 2 ^ 52 + q') := by
    rw [f64Rat_f64Signed hfin, ← mul_assoc, f64Sign_mul_self, one_mul, div_mul_cancel₀ _ hU.ne']
  have hend : f64Sign neg * f64Rat y * 2 ^ 1074 = q * 2 ^ E ∧ 2 * r ≤ 1 ∨
      f64Sign neg * f64Rat y * 2 ^ 1074 = q * 2 ^ E + 2 ^ E ∧ 1 ≤ 2 * r := by
    rw [hy]
    rcases hnear with ⟨rfl, hle⟩ | ⟨rfl, hge⟩
    · exact .inl ⟨hlow, hle⟩
    · exact .inr ⟨hhigh, hge⟩
  refine ⟨f64Finite_f64Signed hfin neg, fun z hz => ?_⟩
  have houtside := f64Rat_outside_gap hz neg (E * 2 ^ 52 + q)
  rw [add_assoc, hlow, hhigh] at houtside
  obtain ⟨hle, heq⟩ := abs_sub_le_of_outside_gap (by positivity) hr0 hr1 hend houtside
  rw [abs_sub_scaled, abs_sub_scaled, hV]
  refine ⟨by gcongr, fun hdist hne => ?_⟩
  have heven : q' % 2 = 0 := htie <| heq ((div_left_inj' hU.ne').mp hdist) fun h =>
    hne (mul_left_cancel₀ (f64Sign_ne_zero neg) (mul_right_cancel₀ hU.ne' h))
  rw [hydef, f64Signed_toNat (hfin.trans (by decide))]
  cases neg <;> simp <;> omega

end Sys2Proof.Proofs
end

section
/-! PROOFS. The binary64 operators (00_scope.md R12 and R13): each is one rounding of the exact result, and O53 follows. -/

namespace Sys2Proof.Proofs

open Sys2Proof.Machine

/-- y is the exact value v, of the sign neg or 0, rounded once by `f64Round`. -/
def RoundsOnce (neg : Bool) (v : ℚ) (y : Word) : Prop :=
  ∃ num den : Nat, den ≠ 0 ∧ v = f64Sign neg * (num / den) ∧ y = f64Round neg num den

theorem RoundsOnce.nearestEven {neg : Bool} {v : ℚ} {y : Word} (h : RoundsOnce neg v y) (hfin : f64Finite y = true) :
    NearestEven v y := by
  obtain ⟨num, den, hd, rfl, rfl⟩ := h
  obtain ⟨E, q, r, q', hround, heq⟩ := f64Round_isRounding neg num hd
  have hmag : E * 2 ^ 52 + q' < f64InfMag := by
    rw [heq, f64Finite_iff, f64Mag_f64Signed ((min_le_left _ _).trans_lt (by decide))] at hfin
    exact (min_lt_iff.mp hfin).resolve_left (lt_irrefl _)
  rw [heq, min_eq_right hmag.le]
  simpa only [mul_div_cancel_right₀ _ (pow_ne_zero 1074 (two_ne_zero (α := ℚ)))] using hround.nearestEven hmag neg

theorem RoundsOnce.sign {neg : Bool} {v : ℚ} {y : Word} (h : RoundsOnce neg v y) : y.getLsbD 63 = neg := by
  obtain ⟨num, den, hd, -, rfl⟩ := h
  obtain ⟨E, q, r, q', -, heq⟩ := f64Round_isRounding neg num hd
  rw [heq, sign_f64Signed ((min_le_left _ _).trans_lt (by decide))]

theorem roundsOnce_f64RoundDyadic (neg : Bool) (m : Nat) (e : Int) :
    RoundsOnce neg (f64Sign neg * (m * 2 ^ e)) (f64RoundDyadic neg m e) := by
  refine ⟨m * 2 ^ e.toNat, 2 ^ (-e).toNat, by positivity, ?_, rfl⟩
  rw [two_zpow_eq_div]
  push_cast
  rw [mul_div_assoc]

theorem roundsOnce_f64Mul {a b : Word} (ha : f64Finite a = true) (hb : f64Finite b = true) :
    RoundsOnce (a.getLsbD 63 != b.getLsbD 63) (f64Rat a * f64Rat b) (f64Mul a b) := by
  obtain ⟨m, e, hua, hva⟩ := f64Unpack_of_finite ha
  obtain ⟨m', e', hub, hvb⟩ := f64Unpack_of_finite hb
  have hval : f64Rat a * f64Rat b =
      f64Sign (a.getLsbD 63 != b.getLsbD 63) * ((m * m' : ℕ) * 2 ^ (e + e')) := by
    rw [hva, hvb, f64Sign_bne, zpow_add₀ two_ne_zero]
    push_cast
    ring
  rw [hval, f64Mul, hua, hub]
  exact roundsOnce_f64RoundDyadic _ _ _

theorem roundsOnce_f64Div {a b : Word} (ha : f64Finite a = true) (hb : f64Finite b = true) (hb0 : f64Rat b ≠ 0) :
    RoundsOnce (a.getLsbD 63 != b.getLsbD 63) (f64Rat a / f64Rat b) (f64Div a b) := by
  obtain ⟨m, e, hua, hva⟩ := f64Unpack_of_finite ha
  obtain ⟨m', e', hub, hvb⟩ := f64Unpack_of_finite hb
  have hm' : m' ≠ 0 := mt (f64Unpack_mantissa_eq_zero hub).mp hb0
  simp only [f64Div, hua, hub, if_neg hm']
  refine ⟨_, _, by positivity, ?_, rfl⟩
  have hexp : (2 : ℚ) ^ e / 2 ^ e' = 2 ^ (e - e').toNat / 2 ^ (e' - e).toNat := by
    rw [← zpow_sub₀ two_ne_zero, two_zpow_eq_div, neg_sub]
  have hsign : f64Sign (a.getLsbD 63) / f64Sign (b.getLsbD 63) = f64Sign (a.getLsbD 63 != b.getLsbD 63) := by
    rw [div_eq_iff (f64Sign_ne_zero _), f64Sign_bne, mul_assoc, f64Sign_mul_self, mul_one]
  push_cast
  rw [hva, hvb, mul_div_mul_comm, mul_div_mul_comm, hexp, hsign, div_mul_div_comm]

theorem roundsOnce_f64OfNat (v : Nat) : RoundsOnce false v (f64OfNat v) :=
  ⟨v, 1, one_ne_zero, by simp [f64Sign], rfl⟩

theorem f64SignedAt_scaled {base e : Int} (h : base ≤ e) (neg : Bool) (m : Nat) :
    (f64SignedAt base neg m e : ℚ) * 2 ^ base = f64Sign neg * (m * 2 ^ e) := by
  have hexp : (2 : ℚ) ^ (e - base).toNat * 2 ^ base = 2 ^ e := by
    rw [← zpow_natCast, Int.toNat_of_nonneg (by omega), ← zpow_add₀ two_ne_zero, sub_add_cancel]
  rw [← hexp]
  cases neg <;> simp [f64SignedAt, f64Sign, mul_assoc]

/-- The integers `f64Sub` and `f64Le` compare, at the lower of the two exponents, are the exact values. -/
theorem f64_common_base {a b : Word} (ha : f64Finite a = true) (hb : f64Finite b = true) :
    ∃ m e m' e', f64Unpack a = .fin (a.getLsbD 63) m e ∧ f64Unpack b = .fin (b.getLsbD 63) m' e' ∧
      (f64SignedAt (min e e') (a.getLsbD 63) m e : ℚ) * 2 ^ min e e' = f64Rat a ∧
      (f64SignedAt (min e e') (b.getLsbD 63) m' e' : ℚ) * 2 ^ min e e' = f64Rat b := by
  obtain ⟨m, e, hua, hva⟩ := f64Unpack_of_finite ha
  obtain ⟨m', e', hub, hvb⟩ := f64Unpack_of_finite hb
  exact ⟨m, e, m', e', hua, hub, by rw [f64SignedAt_scaled (min_le_left _ _), hva],
    by rw [f64SignedAt_scaled (min_le_right _ _), hvb]⟩

theorem f64Le_iff {a b : Word} (ha : f64Finite a = true) (hb : f64Finite b = true) :
    f64Le a b = true ↔ f64Rat a ≤ f64Rat b := by
  obtain ⟨m, e, m', e', hua, hub, hva, hvb⟩ := f64_common_base ha hb
  have hpos : (0 : ℚ) < 2 ^ min e e' := by positivity
  simp only [f64Le, hua, hub, decide_eq_true_eq]
  rw [← hva, ← hvb, mul_le_mul_iff_left₀ hpos, Int.cast_le]

theorem f64Sign_mul_natAbs (d : Int) : f64Sign (decide (d < 0)) * (d.natAbs : ℚ) = d := by
  rcases lt_or_ge d 0 with h | h
  · rw [f64Sign, if_pos (by simpa using h), Nat.cast_natAbs, abs_of_neg h]
    push_cast
    ring
  · rw [f64Sign, if_neg (by simpa using h), Nat.cast_natAbs, abs_of_nonneg h, one_mul]

theorem roundsOnce_f64Sub {a b : Word} (ha : f64Finite a = true) (hb : f64Finite b = true)
    (hne : f64Rat a ≠ f64Rat b) :
    RoundsOnce (decide (f64Rat a < f64Rat b)) (f64Rat a - f64Rat b) (f64Sub a b) := by
  obtain ⟨m, e, m', e', hua, hub, hva, hvb⟩ := f64_common_base ha hb
  have hpos : (0 : ℚ) < 2 ^ min e e' := by positivity
  simp only [f64Sub, hua, hub]
  generalize f64SignedAt (min e e') (a.getLsbD 63) m e = A at *
  generalize f64SignedAt (min e e') (b.getLsbD 63) m' e' = B at *
  generalize min e e' = base at *
  have hd : A - B ≠ 0 := fun h => hne (by rw [← hva, ← hvb, sub_eq_zero.mp h])
  have hneg : decide (f64Rat a < f64Rat b) = decide (A - B < 0) := by
    rw [decide_eq_decide, ← hva, ← hvb, mul_lt_mul_iff_left₀ hpos, Int.cast_lt, sub_neg]
  have hval : f64Rat a - f64Rat b = f64Sign (decide (A - B < 0)) * ((A - B).natAbs * 2 ^ base) := by
    rw [← mul_assoc, f64Sign_mul_natAbs, ← hva, ← hvb]
    push_cast
    ring
  rw [if_neg hd, hneg, hval]
  exact roundsOnce_f64RoundDyadic _ _ _

theorem f64_eq_zero_iff {x : Word} (hx : f64Finite x = true) (neg : Bool) :
    x = f64Signed neg 0 ↔ x.getLsbD 63 = neg ∧ f64Rat x = 0 := by
  rw [f64Rat_eq_zero hx]
  constructor
  · rintro rfl
    exact ⟨sign_f64Signed (by decide) neg, f64Mag_f64Signed (by decide) neg⟩
  · rintro ⟨hs, hm⟩
    rw [← f64Signed_sign_mag x, hs, hm]

/-- A zero difference is +0.0, but for (-0.0) - (+0.0). -/
theorem f64Sub_of_eq {a b : Word} (ha : f64Finite a = true) (hb : f64Finite b = true) (hab : f64Rat a = f64Rat b) :
    f64Sub a b = if a = 0x8000000000000000 ∧ b = 0 then 0x8000000000000000 else 0 := by
  obtain ⟨m, e, m', e', hua, hub, hva, hvb⟩ := f64_common_base ha hb
  have hpos : (0 : ℚ) < 2 ^ min e e' := by positivity
  have hd : f64SignedAt (min e e') (a.getLsbD 63) m e - f64SignedAt (min e e') (b.getLsbD 63) m' e' = 0 := by
    rw [← hva, ← hvb, mul_left_inj' hpos.ne', Int.cast_inj] at hab
    exact sub_eq_zero.mpr hab
  have hzeros : a = 0x8000000000000000 ∧ b = 0 ↔ (a.getLsbD 63 && !b.getLsbD 63 && m == 0) = true := by
    have hna := f64_eq_zero_iff ha true
    have hpb := f64_eq_zero_iff hb false
    rw [show f64Signed true 0 = 0x8000000000000000 by decide] at hna
    rw [show f64Signed false 0 = 0 by decide] at hpb
    rw [hna, hpb, ← hab, Bool.and_eq_true, Bool.and_eq_true, beq_iff_eq, f64Unpack_mantissa_eq_zero hua,
      Bool.not_eq_true']
    tauto
  simp only [f64Sub, hua, hub, hd, if_true]
  by_cases h : (a.getLsbD 63 && !b.getLsbD 63 && m == 0) = true
  · rw [if_pos (hzeros.mpr h), h]
    decide
  · rw [if_neg (mt hzeros.mp h), Bool.not_eq_true _ |>.mp h]
    decide

theorem nearestEven_f64Sub {a b : Word} (ha : f64Finite a = true) (hb : f64Finite b = true)
    (hfin : f64Finite (f64Sub a b) = true) : NearestEven (f64Rat a - f64Rat b) (f64Sub a b) := by
  rcases eq_or_ne (f64Rat a) (f64Rat b) with hab | hab
  · have hzero : f64Rat (f64Sub a b) = 0 := by
      rw [f64Rat_eq_zero hfin, f64Sub_of_eq ha hb hab]
      split <;> decide
    refine ⟨hfin, fun z _ => ?_⟩
    rw [hab, sub_self, hzero, sub_zero, sub_zero, abs_zero]
    exact ⟨abs_nonneg _, fun h hne => absurd (abs_eq_zero.mp h.symm) hne⟩
  · exact (roundsOnce_f64Sub ha hb hab).nearestEven hfin

theorem exponent_le_of_scaled_le {E q N k : Nat} (hq : 2 ^ 52 ≤ q) (hN : N < 2 ^ 53)
    (h : (q : ℚ) * 2 ^ E ≤ N * 2 ^ k) : E ≤ k := by
  by_contra hlt
  have hdouble : 2 * 2 ^ k ≤ 2 ^ E := by
    rw [← pow_succ']
    exact Nat.pow_le_pow_right two_pos (by omega)
  have : 2 ^ 53 * 2 ^ k ≤ N * 2 ^ k :=
    calc 2 ^ 53 * 2 ^ k = 2 ^ 52 * (2 * 2 ^ k) := by ring
      _ ≤ q * 2 ^ E := Nat.mul_le_mul hq hdouble
      _ ≤ N * 2 ^ k := by exact_mod_cast h
  exact absurd (Nat.le_of_mul_le_mul_right this (by positivity)) (by omega)

theorem eq_of_add_rest_eq {q n : Nat} {r : ℚ} (hr0 : 0 ≤ r) (hr1 : r < 1) (h : q + r = (n : ℚ)) : q = n ∧ r = 0 := by
  have hlow : (q : ℚ) ≤ n := by linarith
  have hhigh : (n : ℚ) < (q + 1 : ℕ) := by push_cast; linarith
  obtain rfl : q = n := le_antisymm (Nat.cast_le.mp hlow) (Nat.lt_succ_iff.mp (Nat.cast_lt.mp hhigh))
  exact ⟨rfl, by linarith⟩

/-- An integer of at most 53 bits is rounded to itself. -/
theorem IsRounding.exact {N E q q' : Nat} {r : ℚ} (h : IsRounding (N * 2 ^ 1074) E q r q') (hN : N < 2 ^ 53) :
    E * 2 ^ 52 + q' < f64InfMag ∧ f64Units (E * 2 ^ 52 + q') = N * 2 ^ 1074 := by
  obtain ⟨hV, hr0, hr1, hcarry, hnormal, hnear, -⟩ := h
  have hpos : (0 : ℚ) < 2 ^ E := by positivity
  have hE : E ≤ 1074 := by
    rcases hnormal with rfl | hq
    · exact Nat.zero_le _
    exact exponent_le_of_scaled_le hq hN (by rw [hV]; gcongr; linarith)
  have hsplit : N * 2 ^ 1074 = N * 2 ^ (1074 - E) * 2 ^ E := by
    rw [mul_assoc, ← pow_add, Nat.sub_add_cancel hE]
  have hint : (q : ℚ) + r = (N * 2 ^ (1074 - E) : ℕ) := by
    refine mul_right_cancel₀ hpos.ne' (hV.symm.trans ?_)
    rw [Nat.cast_mul, Nat.cast_pow, Nat.cast_two, mul_assoc, ← pow_add, Nat.sub_add_cancel hE]
  obtain ⟨hq, hr⟩ := eq_of_add_rest_eq hr0 hr1 hint
  obtain rfl : q' = q := by
    rcases hnear with ⟨hq', -⟩ | ⟨-, hge⟩
    · exact hq'
    · rw [hr] at hge; norm_num at hge
  constructor
  · rw [f64InfMag]; omega
  · rw [f64Units_binade hcarry.le hnormal, hsplit, ← hq]

theorem f64OfNat_exact {v : Nat} (hv : v < 2 ^ 53) : f64Finite (f64OfNat v) = true ∧ f64Rat (f64OfNat v) = v := by
  obtain ⟨E, q, r, q', hround, heq⟩ := f64Round_isRounding false v one_ne_zero
  rw [Nat.cast_one, div_one] at hround
  obtain ⟨hfin, hval⟩ := hround.exact hv
  rw [f64OfNat, heq, min_eq_right hfin.le]
  refine ⟨f64Finite_f64Signed hfin false, ?_⟩
  rw [f64Rat_f64Signed hfin, hval, Nat.cast_mul, Nat.cast_pow, Nat.cast_two, mul_div_cancel_right₀ _ (by positivity)]
  simp [f64Sign]

theorem f64Rat_zero : f64Rat f64Zero = 0 := (f64Rat_eq_zero (by decide)).mpr (by decide)

theorem f64Rat_one : f64Rat f64One = 1 := by
  have h := (f64OfNat_exact (v := 1) (by decide)).2
  rwa [show f64OfNat 1 = f64One by decide, Nat.cast_one] at h

theorem inUnitInterval_iff (d : Word) :
    inUnitInterval d = true ↔ f64Finite d = true ∧ 0 ≤ f64Rat d ∧ f64Rat d ≤ 1 := by
  rw [inUnitInterval, Bool.and_eq_true, Bool.and_eq_true, and_assoc]
  refine and_congr_right fun hd => ?_
  rw [f64Le_iff (by decide) hd, f64Le_iff hd (by decide), f64Rat_zero, f64Rat_one]

/-- Settles O53: each operator rounds its exact result once (`RoundsOnce`), and one rounding is a nearest value. -/
theorem operatorsRoundToNearestEven : Obligations.OperatorsRoundToNearestEven :=
  ⟨fun _ _ ha hb => ⟨(roundsOnce_f64Mul ha hb).nearestEven,
      fun hb0 => (roundsOnce_f64Div ha hb hb0).nearestEven, nearestEven_f64Sub ha hb,
      (roundsOnce_f64Mul ha hb).sign, fun hb0 => (roundsOnce_f64Div ha hb hb0).sign, f64Sub_of_eq ha hb,
      f64Le_iff ha hb⟩,
    fun v => (roundsOnce_f64OfNat v).nearestEven, fun _ hv => f64OfNat_exact hv, inUnitInterval_iff⟩

end Sys2Proof.Proofs
end

section
/-! PROOFS. The register port (20_memory.md R71): one equation for a host write to a mapped offset and one for a read, and
what a performed write does to a register of each access class (10_state.md R32). -/

namespace Sys2Proof.Proofs

open Sys2Proof.Machine

theorem portRegister_of_mem_registerMap {off : Nat} {r : RegName} (h : (off, r) ∈ registerMap) :
    portRegister off 64 = some r :=
  (by decide : ∀ p ∈ registerMap, portRegister p.1 64 = some p.2) _ h

/-- A write to a mapped offset: only a write to STATUS is performed while BUSY (70_reset_and_hazards.md R445). -/
theorem hostAccess_writeReg_mapped {off : Nat} {r : RegName} (h : (off, r) ∈ registerMap) (v : Word) (s : State) :
    hostAccess (.writeReg off 64 v) s =
      .next (if s.status.busy && r != .status then s.dropWrite else writeRegister r v s) := by
  simp only [hostAccess, hostWriteReg, portRegister_of_mem_registerMap h]

theorem hostAccess_writeReg_idle {off : Nat} {r : RegName} (h : (off, r) ∈ registerMap) (v : Word) {s : State}
    (hidle : s.status.busy = false) : hostAccess (.writeReg off 64 v) s = .next (writeRegister r v s) := by
  simp [hostAccess_writeReg_mapped h, hidle]

theorem hostAccess_writeReg_busy {off : Nat} {r : RegName} (h : (off, r) ∈ registerMap) (v : Word) {s : State}
    (hbusy : s.status.busy = true) (hr : r ≠ .status) : hostAccess (.writeReg off 64 v) s = .next s.dropWrite := by
  simp [hostAccess_writeReg_mapped h, hbusy, hr]

theorem hostAccess_writeReg_status (v : Word) (s : State) :
    hostAccess (.writeReg 0x10 64 v) s = .next (writeRegister .status v s) := by
  simp [hostAccess_writeReg_mapped (show (0x10, RegName.status) ∈ registerMap by decide)]

/-- A read of a mapped register that has a value, busy or not (70_reset_and_hazards.md R449). -/
theorem hostAccess_readReg_mapped {off : Nat} {r : RegName} (h : (off, r) ∈ registerMap) {v : Word} {s : State}
    (hv : readRegister r s = some v) : hostAccess (.readReg off 64) s = .next (s.setReadData v) := by
  simp only [hostAccess, hostReadReg, portRegister_of_mem_registerMap h, hv]

/-! The effect of a performed write. -/

@[simp] theorem writeRegister_pcm (r : RegName) (v : Word) (s : State) : (writeRegister r v s).pcm = s.pcm := by
  cases r <;> rfl

@[simp] theorem writeRegister_frame (r : RegName) (v : Word) (s : State) : (writeRegister r v s).frame = s.frame := by
  cases r <;> rfl

theorem readRegister_writeRegister_same {r : RegName} (hr : r ∈ storageRegisters) (v : Word) (s : State) :
    readRegister r (writeRegister r v s) = some v := by
  fin_cases hr <;> rfl

theorem writtenFlag_writeRegister_same {r : RegName} (hr : r ∈ storageRegisters) (v : Word) (s : State) :
    writtenFlag r (writeRegister r v s) = true := by
  fin_cases hr <;> rfl

/-- A storage register's write leaves every other register's value and flag: each is a field of State of its own, so a pair
of registers is either equal or reads the same by computation. -/
theorem writeRegister_storage_other {r r' : RegName} (hr : r ∈ storageRegisters) (hne : r' ≠ r) (v : Word) (s : State) :
    readRegister r' (writeRegister r v s) = readRegister r' s ∧
      writtenFlag r' (writeRegister r v s) = writtenFlag r' s := by
  fin_cases hr <;> cases r' <;> trivial

theorem writeRegister_readOnly {r : RegName} (hr : r ∈ readOnlyRegisters) (v : Word) (s : State) :
    writeRegister r v s = s := by
  fin_cases hr <;> rfl

/-- The write-one-to-clear bit of STATUS as R36 words it. -/
theorem statusWritten_eq_clear (v : Word) (st : Status) :
    statusWritten v st = { st with lost := if v.getLsbD 2 then false else st.lost } := by
  rw [statusWritten]
  cases v.getLsbD 2 <;> simp

end Sys2Proof.Proofs
end

section
/-! PROOFS. The state after reset and the access classes of the host port (10_state.md R32, R34, R36, R52): O1, O5, O6
and O8. -/

namespace Sys2Proof.Proofs

open Sys2Proof.Machine

/-- Settles O1: the reset state read register by register. -/
theorem resetLeavesStatedValues : Obligations.ResetLeavesStatedValues := by
  have hstatus : statusWord State.reset.status = 0 := by decide
  have htag : frameTagWord State.reset.frameTag = 0 := by decide
  have hflags : ∀ r ∈ storageRegisters ++ [.res0, .res1, .frameLo, .frameHi], writtenFlag r State.reset = false := by
    decide
  exact ⟨rfl, rfl, congrArg some hstatus, hflags, congrArg some htag, rfl, fun _ => rfl, rfl⟩

/-- Settles O5: at an idle block every write is performed, and each access class has its own effect. -/
theorem accessClasses : Obligations.AccessClasses := by
  intro s v hidle
  refine ⟨fun off r hmap hr => ?_, fun off r hmap hr => ?_, ?_, ?_⟩
  · exact ⟨_, hostAccess_writeReg_idle hmap v hidle, readRegister_writeRegister_same hr v s,
      writtenFlag_writeRegister_same hr v s, fun r' hne => writeRegister_storage_other hr hne v s,
      writeRegister_pcm r v s, writeRegister_frame r v s⟩
  · rw [hostAccess_writeReg_idle hmap v hidle, writeRegister_readOnly hr]
  · exact ⟨_, hostAccess_writeReg_idle (r := .cmd) (by decide) v hidle, rfl, rfl⟩
  · exact ⟨_, hostAccess_writeReg_status v s, congrArg Status.lost (statusWritten_eq_clear v s.status)⟩

/-- Settles O6: a CMD write is performed at an idle block and dropped at a busy one, and CMD reads its stored word. -/
theorem commandWrite : Obligations.CommandWrite := by
  intro s v
  have hmap : (0x08, RegName.cmd) ∈ registerMap := by decide
  exact ⟨fun hidle => hostAccess_writeReg_idle hmap v hidle,
    fun hbusy => hostAccess_writeReg_busy hmap v hbusy (by decide), hostAccess_readReg_mapped hmap rfl, rfl⟩

/-- Settles O8: a STATUS write is performed whatever BUSY, and clears LOST alone, by bit 2. -/
theorem statusWrite : Obligations.StatusWrite := by
  intro s v
  rw [hostAccess_writeReg_status, writeRegister, statusWritten_eq_clear]

end Sys2Proof.Proofs
end

section
/-! PROOFS. Every access of the register port (20_memory.md R71, R80; 10_state.md R33, R53): which accesses reach a register,
what a read returns, and O4. -/

namespace Sys2Proof.Proofs

open Sys2Proof.Machine

theorem mem_registerMap_of_regAtOffset {off : Nat} {r : RegName} (h : regAtOffset off = some r) :
    (off, r) ∈ registerMap := by
  unfold regAtOffset at h
  split at h <;> cases h <;> decide

theorem registerMap_aligned {off : Nat} {r : RegName} (h : (off, r) ∈ registerMap) : off % 8 = 0 ∧ off < 0xA0 :=
  (by decide : ∀ p ∈ registerMap, p.1 % 8 = 0 ∧ p.1 < 0xA0) _ h

/-- The accesses that reach no register (20_memory.md R71; the reserved offsets of 10_state.md R53 included). -/
theorem portRegister_eq_none {off bits : Nat} (h : bits ≠ 64 ∨ off % 8 ≠ 0 ∨ 0xA0 ≤ off) :
    portRegister off bits = none := by
  refine Option.eq_none_iff_forall_ne_some.mpr fun r hr => ?_
  obtain ⟨hbits, hreg⟩ : bits = 64 ∧ regAtOffset off = some r := by simpa [portRegister] using hr
  have := registerMap_aligned (mem_registerMap_of_regAtOffset hreg)
  omega

theorem hostAccess_readReg_unmapped {off bits : Nat} (h : portRegister off bits = none) (s : State) :
    hostAccess (.readReg off bits) s = .refused (.busErrorRegister off bits) := by
  simp only [hostAccess, hostReadReg, h]

theorem hostAccess_writeReg_unmapped {off bits : Nat} (h : portRegister off bits = none) (v : Word) (s : State) :
    hostAccess (.writeReg off bits v) s = .refused (.busErrorRegister off bits) := by
  simp only [hostAccess, hostWriteReg, h]

theorem hostAccess_readReg_unwritten {off : Nat} {r : RegName} (h : (off, r) ∈ registerMap) {s : State}
    (hv : readRegister r s = none) :
    hostAccess (.readReg off 64) s = .next (s.setReadData (unspecifiedValue r off s)) := by
  simp only [hostAccess, hostReadReg, portRegister_of_mem_registerMap h, hv]

@[simp] theorem flagged_eq_none (written : Bool) (v : Word) : flagged written v = none ↔ written = false := by
  cases written <;> simp [flagged]

/-- CMD is the one register that reads a value without its written flag (10_state.md R34; notes/assumptions/4). -/
theorem readRegister_eq_none_iff (r : RegName) (s : State) :
    readRegister r s = none ↔ r ≠ .cmd ∧ writtenFlag r s = false := by
  cases r <;> simp [readRegister, writtenFlag]

@[simp] theorem readRegister_setReadData (r : RegName) (s : State) (v : Word) :
    readRegister r (s.setReadData v) = readRegister r s := by
  cases r <;> rfl

/-- Only FRAME[127:120] is masked out of the free value (10_state.md R46). -/
theorem getLsbD_unspecifiedBits (r : RegName) {i : Nat} (hi : i < 64) :
    (unspecifiedBits r).getLsbD i = !(decide (r = .frameHi) && decide (56 ≤ i)) := by
  by_cases hr : r = .frameHi
  · simpa [unspecifiedBits, hr] using
      (by decide : ∀ i < 64, (0x00FFFFFFFFFFFFFF : Word).getLsbD i = !decide (56 ≤ i)) i hi
  · simpa [unspecifiedBits, hr] using (by decide : ∀ i < 64, (0xFFFFFFFFFFFFFFFF : Word).getLsbD i = true) i hi

/-- What a read returns does not depend on what was read before, so a second read repeats the first (20_memory.md R80). -/
theorem hostAccess_readReg_idempotent {off : Nat} {r : RegName} (h : (off, r) ∈ registerMap) (s : State) :
    ∃ v, hostAccess (.readReg off 64) s = .next (s.setReadData v) ∧
      hostAccess (.readReg off 64) (s.setReadData v) = .next (s.setReadData v) := by
  cases hv : readRegister r s with
  | none =>
    exact ⟨_, hostAccess_readReg_unwritten h hv, hostAccess_readReg_unwritten h (by rwa [readRegister_setReadData])⟩
  | some v => exact ⟨v, hostAccess_readReg_mapped h hv, hostAccess_readReg_mapped h (by rwa [readRegister_setReadData])⟩

/-- Settles O4: a mapped access by whether the register has a value, and every other one as a bus error. -/
theorem registerPortAccesses : Obligations.RegisterPortAccesses := by
  refine fun s => ⟨fun off r hmap => ⟨fun v hv => hostAccess_readReg_mapped hmap hv, fun hv => ?_, ?_,
    readRegister_eq_none_iff r s, fun v => ⟨_, hostAccess_writeReg_mapped hmap v s⟩⟩, fun off bits _ h => ?_⟩
  · refine ⟨_, hostAccess_readReg_unwritten hmap hv, fun i hi => ?_⟩
    rw [unspecifiedValue, BitVec.getLsbD_and, getLsbD_unspecifiedBits r hi]
  · obtain ⟨v, hfirst, hsecond⟩ := hostAccess_readReg_idempotent hmap s
    exact ⟨_, hfirst, rfl, hsecond⟩
  · have hport := portRegister_eq_none h
    exact ⟨hostAccess_readReg_unmapped hport s, fun v => hostAccess_writeReg_unmapped hport v s⟩

end Sys2Proof.Proofs
end

section
/-! PROOFS. The PCM read (20_memory.md R75): `MemRead` assembles little-endian the bytes its reader gives, whatever the
reader, and a host read returns that word; O10. -/

namespace Sys2Proof.Proofs

open Sys2Proof.Machine

theorem ofNat_cons_byte (b : Byte) (rest : Nat) : BitVec.ofNat 8 (b.toNat + 256 * rest) = b :=
  BitVec.eq_of_toNat_eq ((Nat.add_mul_mod_self_left b.toNat 256 rest).trans (Nat.mod_eq_of_lt b.isLt))

/-- A byte put below the rest moves each of the rest's bytes one place up. -/
theorem cons_byte_shiftRight (b : Byte) (rest i : Nat) : (b.toNat + 256 * rest) >>> (8 * (i + 1)) = rest >>> (8 * i) := by
  have hlow : (b.toNat + 256 * rest) >>> 8 = rest := by
    rw [Nat.shiftRight_eq_div_pow]
    have := b.isLt
    omega
  rw [Nat.mul_add, Nat.add_comm (8 * i), Nat.shiftRight_add, hlow]

/-- `MemRead` over bytes that all have a value: by induction on the width, lowest address first. -/
theorem memRead_of_isSome {rd : Nat → Option Byte} {a n : Nat} (h : ∀ i, i < n → (rd (a + i)).isSome = true) :
    ∃ v, memRead rd a n = .ok v ∧ v < 2 ^ (8 * n) ∧ ∀ i, i < n → rd (a + i) = some (BitVec.ofNat 8 (v >>> (8 * i))) := by
  induction n generalizing a with
  | zero => exact ⟨0, rfl, by decide, by simp⟩
  | succ n ih =>
    obtain ⟨b, hb⟩ := Option.isSome_iff_exists.mp (h 0 n.succ_pos)
    obtain ⟨rest, hrest, hlt, hbytes⟩ := ih (a := a + 1) fun i hi => by
      simpa only [Nat.add_assoc, Nat.add_comm 1] using h (i + 1) (by omega)
    refine ⟨b.toNat + 256 * rest, ?_, ?_, fun i hi => ?_⟩
    · rw [Nat.add_zero] at hb
      simp only [memRead, hb, hrest]
    · have := b.isLt
      rw [Nat.mul_succ, Nat.pow_add]
      omega
    · cases i with
      | zero =>
        rw [hb, Nat.mul_zero, Nat.shiftRight_zero, ofNat_cons_byte]
      | succ i =>
        rw [cons_byte_shiftRight, ← hbytes i (by omega), Nat.add_assoc, Nat.add_comm 1]

theorem pcmWidth_iff (n : Nat) : pcmWidth n = true ↔ n = 1 ∨ n = 2 ∨ n = 4 ∨ n = 8 := by
  simp [pcmWidth, or_assoc]

/-- A PCM read of a legal width within the memory, of bytes that the host sees a value of: their word, zero-extended. -/
theorem hostAccess_readPcm_seen {s : State} {a n : Nat} {seesNew : BitVec 8} (hn : n = 1 ∨ n = 2 ∨ n = 4 ∨ n = 8)
    (hin : a + n ≤ s.params.pcmBytes) (hseen : ∀ i, i < n → (pcmReadByte s a seesNew (a + i)).isSome = true) :
    ∃ v : Word, hostAccess (.readPcm a n seesNew) s = .next (s.setReadData v) ∧
      (∀ i, i < n → pcmReadByte s a seesNew (a + i) = some (v.extractLsb' (8 * i) 8)) ∧ v.toNat < 2 ^ (8 * n) := by
  obtain ⟨v, hv, hlt, hbytes⟩ := memRead_of_isSome hseen
  have hword : (toWord v).toNat = v := by
    have : 2 ^ (8 * n) ≤ 2 ^ 64 := Nat.pow_le_pow_right (by decide) (by omega)
    exact Nat.mod_eq_of_lt (by omega)
  refine ⟨toWord v, ?_, fun i hi => ?_, by rwa [hword]⟩
  · simp [hostAccess, hostReadPcm, (pcmWidth_iff n).mpr hn, hin, hv]
  · rw [hbytes i hi, BitVec.extractLsb', hword]

theorem hostAccess_readPcm_busError {s : State} {a n : Nat} (seesNew : BitVec 8)
    (h : ¬(n = 1 ∨ n = 2 ∨ n = 4 ∨ n = 8) ∨ s.params.pcmBytes < a + n) :
    hostAccess (.readPcm a n seesNew) s = .refused (.busErrorPcm a n) := by
  have : (pcmWidth n && decide (a + n ≤ s.params.pcmBytes)) = false := by
    rw [← Bool.not_eq_true, Bool.and_eq_true, pcmWidth_iff, decide_eq_true_iff]
    omega
  simp [hostAccess, hostReadPcm, this]

theorem runningRenderPcm_eq_none {s : State} (h : s.status.busy = true → decode s.cmd.value ≠ .ok .render) :
    runningRenderPcm s = none := by
  unfold runningRenderPcm
  split
  · exact absurd ‹_› (h ‹_›)
  · rfl

/-- While no RENDER runs, the host sees the memory as it is (70_reset_and_hazards.md R446). -/
theorem pcmReadByte_of_no_render {s : State} (h : s.status.busy = true → decode s.cmd.value ≠ .ok .render) (base : Nat)
    (seesNew : BitVec 8) (a : Nat) : pcmReadByte s base seesNew a = pcmByte s.pcm a := by
  rw [pcmReadByte, runningRenderPcm_eq_none h]

/-- Settles O10: while no RENDER runs the bytes seen are the memory's, and `MemRead` puts them together little-endian. -/
theorem pcmReadIsLittleEndian : Obligations.PcmReadIsLittleEndian := by
  refine fun s a n seesNew => ⟨fun hn hin hidle hwritten => ?_, hostAccess_readPcm_busError seesNew⟩
  simp only [← pcmReadByte_of_no_render hidle a seesNew] at hwritten ⊢
  exact hostAccess_readPcm_seen hn hin hwritten

end Sys2Proof.Proofs
end

section
/-! PROOFS. The bit-codec functions (40_bitcodec.md R131 to R143): what each computes on numbers, by digits or
bit by bit. -/

namespace Sys2Proof.Proofs

open Sys2Proof.Machine

theorem require_decide (p : Prop) [Decidable p] (e : ErrCode) :
    require (decide p) e = if p then .ok () else .error e := by
  by_cases h : p <;> simp [h]

/-! Packed digits (R131 to R135). -/

/-- Three digits in groups of k bits: the groups do not overlap, so their OR is their sum. -/
theorem packed_digits {k tens units : Nat} (htens : tens < 2 ^ k) (hunits : units < 2 ^ k) (hundreds : Nat) :
    hundreds <<< (2 * k) ||| tens <<< k ||| units = 2 ^ k * (2 ^ k * hundreds + tens) + units := by
  rw [Nat.two_mul, Nat.shiftLeft_add, ← Nat.shiftLeft_or_distrib, ← Nat.shiftLeft_add_eq_or_of_lt htens,
    ← Nat.shiftLeft_add_eq_or_of_lt hunits, Nat.shiftLeft_eq, Nat.shiftLeft_eq]
  ring

theorem bcd_eq (v : Nat) : bcd v = 256 * (v / 100) + 16 * (v / 10 % 10) + v % 10 :=
  (packed_digits (k := 4) (by omega) (by omega) _).trans (by omega)

theorem bcd5_eq (v : Nat) : bcd5 v = 1024 * (v / 100) + 32 * (v / 10 % 10) + v % 10 := by
  rw [bcd5, Nat.or_comm, Nat.or_comm (v % 10), ← Nat.or_assoc]
  exact (packed_digits (k := 5) (by omega) (by omega) _).trans (by omega)

theorem bcdEncode_eq (v : Nat) : bcdEncode v = if v ≤ 255 then .ok (bcd v) else .error .range := by
  rw [bcdEncode, require_decide]
  split <;> rfl

theorem bcd5Encode_eq (v : Nat) : bcd5Encode v = if v ≤ 999 then .ok (bcd5 v) else .error .range := by
  rw [bcd5Encode, require_decide]
  split <;> rfl

theorem digit_bind {α : Type} (d : Nat) (f : Nat → Except ErrCode α) :
    (digit d >>= f) = if d ≤ 9 then f d else .error .format := by
  rw [digit, require_decide]
  split <;> rfl

/-- A set pad bit puts the group over 9, so the two checks of R135 are one. -/
theorem digit5_eq_digit {g : Nat} (hg : g < 32) : digit5 g = digit g := by
  rw [digit5]
  by_cases hpad : g / 2 ^ 4 = 0
  · rw [hpad, Nat.mod_eq_of_lt (by omega : g < 16)]
    rfl
  · have hdigit : digit g = .error .format := by
      rw [digit, decide_eq_false (by omega)]
      rfl
    rw [hdigit, show g / 2 ^ 4 = 1 by omega]
    rfl

theorem unbcd_of_large {x : Nat} (h : 2 ^ 12 ≤ x) : unbcd x = .error .range := by
  rw [unbcd, require_decide, if_neg (by omega)]
  rfl

/-- `unbcd` by nibbles: the digit checks come before the value check (R132). -/
theorem unbcd_nibbles {d0 d1 d2 : Nat} (h0 : d0 < 16) (h1 : d1 < 16) (h2 : d2 < 16) :
    unbcd (d0 + 16 * d1 + 256 * d2) =
      if d0 ≤ 9 ∧ d1 ≤ 9 ∧ d2 ≤ 9 then
        if d0 + 10 * d1 + 100 * d2 ≤ 255 then .ok (d0 + 10 * d1 + 100 * d2) else .error .range
      else .error .format := by
  rw [unbcd, require_decide, if_pos (by omega), show (d0 + 16 * d1 + 256 * d2) % 16 = d0 by omega,
    show (d0 + 16 * d1 + 256 * d2) / 2 ^ 4 % 16 = d1 by omega, show (d0 + 16 * d1 + 256 * d2) / 2 ^ 8 % 16 = d2 by omega]
  simp only [digit_bind, require_decide, ite_and]
  split_ifs <;> rfl

theorem unbcd5_of_large {x : Nat} (h : 2 ^ 15 ≤ x) : unbcd5 x = .error .range := by
  rw [unbcd5, require_decide, if_neg (by omega)]
  rfl

theorem unbcd5_groups {g0 g1 g2 : Nat} (h0 : g0 < 32) (h1 : g1 < 32) (h2 : g2 < 32) :
    unbcd5 (g0 + 32 * g1 + 1024 * g2) =
      if g0 ≤ 9 ∧ g1 ≤ 9 ∧ g2 ≤ 9 then .ok (g0 + 10 * g1 + 100 * g2) else .error .format := by
  rw [unbcd5, require_decide, if_pos (by omega), show (g0 + 32 * g1 + 1024 * g2) % 2 ^ 5 = g0 by omega,
    show (g0 + 32 * g1 + 1024 * g2) / 2 ^ 5 % 2 ^ 5 = g1 by omega,
    show (g0 + 32 * g1 + 1024 * g2) / 2 ^ 10 % 2 ^ 5 = g2 by omega, digit5_eq_digit h0, digit5_eq_digit h1,
    digit5_eq_digit h2]
  simp only [digit_bind, ite_and]
  rfl

/-- R147, first law. -/
theorem unbcd_bcd {v : Nat} (h : v ≤ 255) : unbcd (bcd v) = .ok v := by
  rw [bcd_eq, show 256 * (v / 100) + 16 * (v / 10 % 10) + v % 10 = v % 10 + 16 * (v / 10 % 10) + 256 * (v / 100) by omega,
    unbcd_nibbles (by omega) (by omega) (by omega), if_pos (by omega), if_pos (by omega)]
  congr 1
  omega

/-- R147, second law. -/
theorem unbcd5_bcd5 {v : Nat} (h : v ≤ 999) : unbcd5 (bcd5 v) = .ok v := by
  rw [bcd5_eq,
    show 1024 * (v / 100) + 32 * (v / 10 % 10) + v % 10 = v % 10 + 32 * (v / 10 % 10) + 1024 * (v / 100) by omega,
    unbcd5_groups (by omega) (by omega) (by omega), if_pos (by omega)]
  congr 1
  omega

/-! Reversal (R136). -/

theorem reverseLow_lt (x n : Nat) : reverseLow x n < 2 ^ n := by
  induction n generalizing x with
  | zero => exact Nat.one_pos
  | succ n ih =>
    have hrest := ih (x / 2)
    have hlow : x % 2 * 2 ^ n ≤ 1 * 2 ^ n := Nat.mul_le_mul_right _ (by omega)
    rw [reverseLow, Nat.pow_succ]
    omega

theorem testBit_eq_false_of_le {x n i : Nat} (hx : x < 2 ^ n) (hi : n ≤ i) : x.testBit i = false :=
  Nat.testBit_lt_two_pow (hx.trans_le (Nat.pow_le_pow_right two_pos hi))

theorem reverseLow_lt_two_pow (x : Nat) {n m : Nat} (h : n ≤ m) : reverseLow x n < 2 ^ m :=
  (reverseLow_lt x n).trans_le (Nat.pow_le_pow_right two_pos h)

theorem testBit_reverseLow (x n i : Nat) : (reverseLow x n).testBit i = (decide (i < n) && x.testBit (n - 1 - i)) := by
  induction n generalizing x with
  | zero => simp [reverseLow]
  | succ n ih =>
    rw [reverseLow, Nat.mul_comm, Nat.testBit_two_pow_mul_add _ (reverseLow_lt _ _), ih, Nat.testBit_div_two]
    rcases lt_trichotomy i n with h | rfl | h
    · rw [if_pos h, show n - 1 - i + 1 = n + 1 - 1 - i by omega, decide_eq_true h, decide_eq_true (by omega : i < n + 1)]
    · simp
    · rw [if_neg (by omega), testBit_eq_false_of_le (by omega : x % 2 < 2 ^ 1) (by omega : 1 ≤ i - n),
        decide_eq_false (by omega), Bool.false_and]

/-- R147, third law. -/
theorem reverseLow_reverseLow {v n : Nat} (h : v < 2 ^ n) : reverseLow (reverseLow v n) n = v := by
  refine Nat.eq_of_testBit_eq fun i => ?_
  rw [testBit_reverseLow, testBit_reverseLow]
  by_cases hi : i < n
  · rw [decide_eq_true hi, decide_eq_true (by omega : n - 1 - i < n), show n - 1 - (n - 1 - i) = i by omega]
    rfl
  · rw [decide_eq_false hi, Bool.false_and, testBit_eq_false_of_le h (not_lt.mp hi)]

/-- Reversing one bit or none changes nothing, so the test `1 < width` of R141 and R143 makes no case of its own. -/
theorem reverseLow_of_le_one {v w : Nat} (hw : w ≤ 1) (hv : v < 2 ^ w) : reverseLow v w = v := by
  interval_cases w
  · simp [reverseLow]; omega
  · simp [reverseLow]; omega

/-! Parity (R138). -/

theorem onesIn_succ (x lo n : Nat) :
    onesIn x lo (lo + (n + 1)) = (x.testBit lo).toNat + onesIn x (lo + 1) (lo + 1 + n) := by
  rw [onesIn, onesIn, Nat.add_sub_cancel_left, Nat.add_sub_cancel_left, List.range_succ_eq_map, List.filter_cons,
    List.filter_map, Nat.add_zero]
  simp only [Function.comp_def, Nat.succ_eq_add_one, Nat.add_assoc, Nat.add_comm 1]
  cases x.testBit lo
  · simp
  · simp [Nat.add_comm]

theorem xorLow_eq_onesIn_mod_two (x lo n : Nat) : xorLow (x / 2 ^ lo) n = (onesIn x lo (lo + n) % 2 == 1) := by
  induction n generalizing lo with
  | zero => simp [xorLow, onesIn]
  | succ n ih =>
    have hbit : (x / 2 ^ lo % 2 == 1) = x.testBit lo := (Nat.testBit_eq_decide_div_mod_eq ..).symm
    rw [xorLow, hbit, Nat.div_div_eq_div_mul, ← Nat.pow_succ, ih, onesIn_succ]
    rcases Nat.mod_two_eq_zero_or_one (onesIn x (lo + 1) (lo + 1 + n)) with h | h <;>
      cases x.testBit lo <;> simp [Nat.add_mod, h]

/-- The model's XOR of the range is the even-parity bit by counting ones. -/
theorem parity_eq_evenParityBit {x lo hi : Nat} (h : lo ≤ hi) : parity x lo hi = evenParityBit x lo hi := by
  rw [parity, xorLow_eq_onesIn_mod_two, Nat.add_sub_cancel' h, evenParityBit]

theorem onesIn_add_parity_even {x lo hi : Nat} (h : lo ≤ hi) : (onesIn x lo hi + (parity x lo hi).toNat) % 2 = 0 := by
  rw [parity_eq_evenParityBit h, evenParityBit]
  rcases Nat.mod_two_eq_zero_or_one (onesIn x lo hi) with h | h <;> simp [h, Nat.add_mod]

/-! Fields (R140 to R143). -/

theorem width_lowmask (w : Nat) : width (2 ^ w - 1) = w := by
  cases w with
  | zero => rfl
  | succ w =>
    have hpos : 0 < 2 ^ w := Nat.two_pow_pos w
    have hsucc : 2 ^ (w + 1) = 2 ^ w * 2 := Nat.pow_succ ..
    have hne : 2 ^ (w + 1) - 1 ≠ 0 := by omega
    rw [width, if_neg hne, (Nat.log2_eq_iff hne).mpr (⟨by omega, by omega⟩ : 2 ^ w ≤ _ ∧ _ < 2 ^ (w + 1))]

theorem legalMask_iff (m : Nat) : legalMask m = true ↔ ∃ w, 1 ≤ w ∧ m = 2 ^ w - 1 := by
  have hpow : m &&& (m + 1) = 0 ↔ ∃ w, m + 1 = 2 ^ w := by
    rw [Nat.and_comm]
    exact Nat.and_sub_one_eq_zero_iff_isPowerOfTwo m.succ_ne_zero
  simp only [legalMask, Bool.and_eq_true, bne_iff_ne, beq_iff_eq, hpow]
  constructor
  · rintro ⟨hne, w, hw⟩
    refine ⟨w, Nat.one_le_iff_ne_zero.mpr ?_, by omega⟩
    rintro rfl
    omega
  · rintro ⟨w, hw, rfl⟩
    have := Nat.pow_le_pow_right two_pos hw
    exact ⟨by omega, w, by omega⟩

/-- The three checks on shift and mask pass exactly on the fields within 64 bits (R142). -/
theorem field_checks_iff (shift mask : Nat) :
    (shift ≤ 63 ∧ legalMask mask = true ∧ shift + width mask ≤ 64) ↔
      ∃ w, 1 ≤ w ∧ mask = 2 ^ w - 1 ∧ shift + w ≤ 64 := by
  rw [legalMask_iff]
  constructor
  · rintro ⟨-, ⟨w, hw, rfl⟩, hfit⟩
    exact ⟨w, hw, rfl, by rwa [width_lowmask] at hfit⟩
  · rintro ⟨w, hw, rfl, hfit⟩
    exact ⟨by omega, ⟨w, hw, rfl⟩, by rwa [width_lowmask]⟩

theorem bitsF_eq (data shift w : Nat) : bitsF data shift (2 ^ w - 1) = reverseLow (data >>> shift &&& (2 ^ w - 1)) w := by
  have hlt : data >>> shift &&& (2 ^ w - 1) < 2 ^ w :=
    Nat.and_two_pow_sub_one_eq_mod .. ▸ Nat.mod_lt _ (Nat.two_pow_pos w)
  simp only [bitsF, width_lowmask]
  split
  · rfl
  · rw [reverseLow_of_le_one (by omega) hlt]

theorem testBit_bitsF (data shift w i : Nat) :
    (bitsF data shift (2 ^ w - 1)).testBit i = (decide (i < w) && data.testBit (shift + (w - 1 - i))) := by
  rw [bitsF_eq, testBit_reverseLow, Nat.testBit_and, Nat.testBit_two_pow_sub_one, Nat.testBit_shiftRight]
  by_cases hi : i < w
  · simp [decide_eq_true (by omega : w - 1 - i < w)]
  · simp [hi]

/-- SETBITS's value as it stands in the field: reversed under MSB. -/
def fieldValue (msb : Bool) (value w : Nat) : Nat := if msb then reverseLow value w else value

theorem testBit_fieldValue (msb : Bool) {value w : Nat} (h : value < 2 ^ w) (j : Nat) :
    (fieldValue msb value w).testBit j = (decide (j < w) && value.testBit (if msb then w - 1 - j else j)) := by
  cases msb with
  | true => exact testBit_reverseLow ..
  | false =>
    by_cases hj : j < w
    · simp [fieldValue, hj]
    · simp [fieldValue, hj, testBit_eq_false_of_le h (not_lt.mp hj)]

theorem setBitsF_eq (data shift : Nat) (msb : Bool) {value w : Nat} (h : value < 2 ^ w) :
    setBitsF data value shift (2 ^ w - 1) msb =
      data &&& (lowmask 64 ^^^ (2 ^ w - 1) <<< shift) ||| fieldValue msb value w <<< shift := by
  simp only [setBitsF, width_lowmask]
  congr 2
  cases msb with
  | true =>
    simp only [Bool.true_and, decide_eq_true_eq, fieldValue, if_true]
    split
    · rfl
    · rw [reverseLow_of_le_one (by omega) h]
  | false => rfl

/-- Each bit of SETBITS's result: inside the field the value's, outside it the data's (R143). -/
theorem testBit_setBitsF {data shift value w : Nat} (hdata : data < 2 ^ 64) (msb : Bool) (hvalue : value < 2 ^ w)
    (hfit : shift + w ≤ 64) (i : Nat) :
    (setBitsF data value shift (2 ^ w - 1) msb).testBit i =
      if shift ≤ i ∧ i < shift + w then value.testBit (if msb then w - 1 - (i - shift) else i - shift)
      else data.testBit i := by
  rw [setBitsF_eq data shift msb hvalue, Nat.testBit_or, Nat.testBit_and, Nat.testBit_xor, lowmask,
    Nat.testBit_two_pow_sub_one, Nat.testBit_shiftLeft, Nat.testBit_shiftLeft, Nat.testBit_two_pow_sub_one,
    testBit_fieldValue msb hvalue]
  by_cases hin : shift ≤ i ∧ i < shift + w
  · simp [hin, decide_eq_true (by omega : i < 64), decide_eq_true (by omega : i - shift < w)]
  · have houtside : (decide (shift ≤ i) && decide (i - shift < w)) = false := by
      simp only [Bool.and_eq_false_iff, decide_eq_false_iff_not]
      omega
    have hword : (data.testBit i && decide (i < 64)) = data.testBit i := by
      by_cases hi : i < 64
      · simp [hi]
      · simp [testBit_eq_false_of_le hdata (not_lt.mp hi)]
    rw [if_neg hin, ← Bool.and_assoc, houtside, Bool.xor_false, Bool.false_and, Bool.or_false, hword]

theorem setBitsF_lt {data shift value w : Nat} (hdata : data < 2 ^ 64) (msb : Bool) (hvalue : value < 2 ^ w)
    (hfit : shift + w ≤ 64) : setBitsF data value shift (2 ^ w - 1) msb < 2 ^ 64 := by
  refine Nat.lt_pow_two_of_testBit _ fun i hi => ?_
  rw [testBit_setBitsF hdata msb hvalue hfit, if_neg (by omega), testBit_eq_false_of_le hdata hi]

end Sys2Proof.Proofs
end

section
/-! PROOFS. The bit-codec commands (40_bitcodec.md R130 to R147): one equation for each command, O22 to O31. -/

namespace Sys2Proof.Proofs

open Sys2Proof.Machine

/-- The end of a command whose rule gives one number or the code of its first failed check: RES0 is the number and RES1
is 0. -/
def resultEnd (s : State) : Except ErrCode Nat → Host.Outcome State Fault Refusal
  | .ok r => .next (s.succeeded (toWord r) 0)
  | .error e => .next (s.failed e)

/-- A rule that gives one number ends as `resultEnd` says. -/
@[simp] theorem commandEnd_setResults (s : State) (r : Except ErrCode Nat) :
    commandEnd s ((fun n => s.setResults (toWord n) 0#64) <$> r) = resultEnd s r := by
  cases r <;> rfl

/-- A command's last check, and the state with its writes made. -/
@[simp] theorem commandEnd_map_require (s : State) (c : Bool) (e : ErrCode) (f : Unit → State) :
    commandEnd s (f <$> require c e) = if c then .next (f ()).endOk else .next (s.failed e) := by
  cases c <;> rfl

@[simp] theorem commandEnd_require (s : State) (c : Bool) (e : ErrCode) (f : Unit → Except ErrCode State) :
    commandEnd s (require c e >>= f) = if c then commandEnd s (f ()) else .next (s.failed e) := by
  cases c <;> rfl

@[simp] theorem commandEnd_operand (s : State) (r : Reg) (f : Nat → Except ErrCode State) :
    commandEnd s (operand r >>= f) = if r.written then commandEnd s (f r.value.toNat) else .next (s.failed .uninit) := by
  cases h : r.written <;> simp [operand, h]

theorem toNat_toWord {n : Nat} (h : n < 2 ^ 64) : (toWord n).toNat = n :=
  (BitVec.toNat_ofNat ..).trans (Nat.mod_eq_of_lt h)

theorem toWord_toNat (v : Word) : toWord v.toNat = v := BitVec.eq_of_toNat_eq (toNat_toWord v.isLt)

theorem getLsbD_toWord {n : Nat} (h : n < 2 ^ 64) (i : Nat) : (toWord n).getLsbD i = n.testBit i := by
  rw [BitVec.getLsbD, toNat_toWord h]

/-! One equation for each command: its operand reads, then its checks in their order, then its result. -/

theorem exec_bcdEnc (s : State) :
    exec .bcdEnc s =
      if OperandsWritten .bcdEnc s then resultEnd s (bcdEncode s.opa.value.toNat) else .next (s.failed .uninit) := by
  simp [exec, execBcdEnc, OperandsWritten, operandsRead]

theorem exec_bcdDec (s : State) :
    exec .bcdDec s =
      if OperandsWritten .bcdDec s then resultEnd s (unbcd s.opa.value.toNat) else .next (s.failed .uninit) := by
  simp [exec, execBcdDec, OperandsWritten, operandsRead]

theorem exec_bcd5Enc (s : State) :
    exec .bcd5Enc s =
      if OperandsWritten .bcd5Enc s then resultEnd s (bcd5Encode s.opa.value.toNat) else .next (s.failed .uninit) := by
  simp [exec, execBcd5Enc, OperandsWritten, operandsRead]

theorem exec_bcd5Dec (s : State) :
    exec .bcd5Dec s =
      if OperandsWritten .bcd5Dec s then resultEnd s (unbcd5 s.opa.value.toNat) else .next (s.failed .uninit) := by
  simp [exec, execBcd5Dec, OperandsWritten, operandsRead]

theorem exec_reverse (s : State) :
    exec .reverse s =
      if OperandsWritten .reverse s then
        if s.opb.value.toNat ≤ 64 then .next (s.succeeded (toWord (reverseLow s.opa.value.toNat s.opb.value.toNat)) 0)
        else .next (s.failed .range)
      else .next (s.failed .uninit) := by
  simp [exec, execReverse, OperandsWritten, operandsRead, ite_and]

theorem exec_parity (s : State) :
    exec .parity s =
      if OperandsWritten .parity s then
        if s.opb.value.toNat ≤ s.opc.value.toNat ∧ s.opc.value.toNat ≤ 64 then
          .next (s.succeeded (toWord (parity s.opa.value.toNat s.opb.value.toNat s.opc.value.toNat).toNat) 0)
        else .next (s.failed .range)
      else .next (s.failed .uninit) := by
  simp [exec, execParity, OperandsWritten, operandsRead, ite_and]

theorem exec_bits (s : State) :
    exec .bits s =
      if OperandsWritten .bits s then
        if s.opb.value.toNat ≤ 63 ∧ legalMask s.opc.value.toNat = true ∧
            s.opb.value.toNat + width s.opc.value.toNat ≤ 64 then
          .next (s.succeeded (toWord (bitsF s.opa.value.toNat s.opb.value.toNat s.opc.value.toNat)) 0)
        else .next (s.failed .range)
      else .next (s.failed .uninit) := by
  simp [exec, execBits, OperandsWritten, operandsRead, ite_and]

theorem exec_setbits (msb : Bool) (s : State) :
    exec (.setbits msb) s =
      if OperandsWritten (.setbits msb) s then
        if (s.opc.value.toNat ≤ 63 ∧ legalMask s.opd.value.toNat = true ∧
            s.opc.value.toNat + width s.opd.value.toNat ≤ 64) ∧ s.opb.value.toNat ≤ s.opd.value.toNat then
          .next (s.succeeded
            (toWord (setBitsF s.opa.value.toNat s.opb.value.toNat s.opc.value.toNat s.opd.value.toNat msb)) 0)
        else .next (s.failed .range)
      else .next (s.failed .uninit) := by
  simp [exec, execSetbits, OperandsWritten, operandsRead, ite_and]

/-- Settles O22: NOP has no check and makes no write. -/
theorem nopEndsTheCommand : Obligations.NopEndsTheCommand := fun _ => rfl

/-- Settles O23: BCD_ENC's one check, and the nibbles `bcd` packs. -/
theorem bcdEncResult : Obligations.BcdEncResult := by
  intro s
  refine ⟨fun h => by rw [exec_bcdEnc, if_neg h], fun h => ?_⟩
  rw [exec_bcdEnc, if_pos h, bcdEncode_eq]
  refine ⟨fun hv => ?_, fun hv => ?_⟩
  · rw [if_pos hv, bcd_eq]
    rfl
  · rw [if_neg (by omega)]
    rfl

/-- Settles O25: BCD5_ENC's one check, and the groups `bcd5` packs. -/
theorem bcd5EncResult : Obligations.Bcd5EncResult := by
  intro s
  refine ⟨fun h => by rw [exec_bcd5Enc, if_neg h], fun h => ?_⟩
  rw [exec_bcd5Enc, if_pos h, bcd5Encode_eq]
  refine ⟨fun hv => ?_, fun hv => ?_⟩
  · rw [if_pos hv, bcd5_eq]
    rfl
  · rw [if_neg (by omega)]
    rfl

/-- Settles O24: `unbcd` by the nibbles of its argument. -/
theorem bcdDecResult : Obligations.BcdDecResult := by
  intro s d0 d1 d2
  refine ⟨fun h => by rw [exec_bcdDec, if_neg h], fun h => ?_⟩
  rw [exec_bcdDec, if_pos h]
  refine ⟨fun hx => by rw [unbcd_of_large hx]; rfl, fun h0 h1 h2 hx => ?_⟩
  rw [hx, unbcd_nibbles h0 h1 h2]
  refine ⟨fun hbad => ?_, fun h0 h1 h2 => ?_⟩
  · rw [if_neg (by omega)]
    rfl
  · rw [if_pos ⟨h0, h1, h2⟩]
    refine ⟨fun hv => by rw [if_pos hv]; rfl, fun hv => ?_⟩
    rw [if_neg (by omega)]
    rfl

/-- Settles O26: `unbcd5` by the 5-bit groups of its argument. -/
theorem bcd5DecResult : Obligations.Bcd5DecResult := by
  intro s g0 g1 g2
  refine ⟨fun h => by rw [exec_bcd5Dec, if_neg h], fun h => ?_⟩
  rw [exec_bcd5Dec, if_pos h]
  refine ⟨fun hx => by rw [unbcd5_of_large hx]; rfl, fun h0 h1 h2 hx => ?_⟩
  rw [hx, unbcd5_groups h0 h1 h2]
  refine ⟨fun hbad => ?_, fun h0 h1 h2 => by rw [if_pos ⟨h0, h1, h2⟩]; rfl⟩
  rw [if_neg (by omega)]
  rfl

/-- Settles O27: `reverseLow` bit by bit, within the 64 bits of RES0. -/
theorem reverseResult : Obligations.ReverseResult := by
  intro s
  refine ⟨fun h => by rw [exec_reverse, if_neg h], fun h => ?_⟩
  rw [exec_reverse, if_pos h]
  refine ⟨fun hn => ⟨_, if_pos hn, fun i => ?_⟩, fun hn => if_neg (by omega)⟩
  rw [getLsbD_toWord (reverseLow_lt_two_pow _ hn), testBit_reverseLow, BitVec.getLsbD]

/-- Settles O28: the model's XOR of the range is the bit that makes the count of ones even. -/
theorem parityResult : Obligations.ParityResult := by
  intro s
  refine ⟨fun h => by rw [exec_parity, if_neg h], fun h => ?_⟩
  rw [exec_parity, if_pos h]
  refine ⟨fun hle hhi => ⟨_, ?_, onesIn_add_parity_even hle⟩, fun hbad => if_neg (by omega)⟩
  rw [if_pos ⟨hle, hhi⟩]
  cases parity s.opa.value.toNat s.opb.value.toNat s.opc.value.toNat <;> rfl

/-- Settles O29: the checks pass exactly on a field (`field_checks_iff`), and `bitsF` bit by bit. -/
theorem bitsResult : Obligations.BitsResult := by
  intro s
  refine ⟨fun h => by rw [exec_bits, if_neg h], fun h => ?_⟩
  rw [exec_bits, if_pos h, ← field_checks_iff]
  refine ⟨fun w hw hmask hfit => ?_, fun hbad => if_neg hbad⟩
  refine ⟨_, if_pos ((field_checks_iff ..).mpr ⟨w, hw, hmask, hfit⟩), fun i => ?_⟩
  have hlt : bitsF s.opa.value.toNat s.opb.value.toNat (2 ^ w - 1) < 2 ^ 64 := by
    rw [bitsF_eq]
    exact reverseLow_lt_two_pow _ (by omega)
  rw [hmask, getLsbD_toWord hlt, testBit_bitsF, BitVec.getLsbD]

/-- Settles O30: the checks pass exactly on a field and a value within it, and `setBitsF` bit by bit. -/
theorem setbitsResult : Obligations.SetbitsResult := by
  intro s msb
  refine ⟨fun h => by rw [exec_setbits, if_neg h], fun h => ?_⟩
  rw [exec_setbits, if_pos h, ← field_checks_iff]
  refine ⟨fun w hw hmask hfit hvalue => ?_, fun hbad => if_neg fun ⟨hfield, hvalue⟩ => ?_⟩
  · have hdata := s.opa.value.isLt
    have hlt : s.opb.value.toNat < 2 ^ w := Nat.lt_of_le_sub_one (Nat.two_pow_pos w) (hmask ▸ hvalue)
    refine ⟨_, if_pos ⟨(field_checks_iff ..).mpr ⟨w, hw, hmask, hfit⟩, hvalue⟩, fun j hj => ?_, fun i hout => ?_⟩
    · rw [hmask, getLsbD_toWord (setBitsF_lt hdata msb hlt hfit), testBit_setBitsF hdata msb hlt hfit, if_pos (by omega),
        Nat.add_sub_cancel_left, BitVec.getLsbD]
    · rw [hmask, getLsbD_toWord (setBitsF_lt hdata msb hlt hfit), testBit_setBitsF hdata msb hlt hfit, if_neg (by omega),
        BitVec.getLsbD]
  · exact hbad.elim (fun hno => hno hfield) (by omega)

/-- Two commands undo each other where the second, run on the first one's result, gives the first one's operand. -/
theorem round_trip_of {enc dec : Instr} {s : State} {v : Word} {r : Nat}
    (henc : exec enc s = .next (s.succeeded (toWord r) 0))
    (hdec : ∀ t : State, t.opa = ⟨toWord r, true⟩ → t.opb = s.opb →
      exec dec t = .next (t.succeeded (toWord v.toNat) 0)) :
    ∃ t u, exec enc s = .next t ∧ exec dec { t with opa := t.res0 } = .next u ∧ u.status.err = false ∧
      u.res0.value = v :=
  ⟨_, _, henc, hdec _ rfl rfl, rfl, toWord_toNat v⟩

/-- Settles O31: the functions' inverse laws, each carried over to its two commands. -/
theorem codecRoundTrips : Obligations.CodecRoundTrips := by
  intro s v n
  refine ⟨fun hv => round_trip_of (r := bcd v.toNat) ?_ fun t hopa _ => ?_,
    fun hv => round_trip_of (r := bcd5 v.toNat) ?_ fun t hopa _ => ?_,
    fun hn hv => round_trip_of (r := reverseLow v.toNat n.toNat) ?_ fun t hopa hopb => ?_⟩
  · rw [exec_bcdEnc, if_pos (by simp [OperandsWritten, operandsRead]), bcdEncode_eq, if_pos hv]
    rfl
  · rw [exec_bcdDec, if_pos (by simp [OperandsWritten, operandsRead, hopa]), hopa, toNat_toWord (by rw [bcd_eq]; omega),
      unbcd_bcd hv]
    rfl
  · rw [exec_bcd5Enc, if_pos (by simp [OperandsWritten, operandsRead]), bcd5Encode_eq, if_pos hv]
    rfl
  · rw [exec_bcd5Dec, if_pos (by simp [OperandsWritten, operandsRead, hopa]), hopa, toNat_toWord (by rw [bcd5_eq]; omega),
      unbcd5_bcd5 hv]
    rfl
  · rw [exec_reverse, if_pos (by simp [OperandsWritten, operandsRead]), if_pos hn]
  · rw [exec_reverse, if_pos (by simp [OperandsWritten, operandsRead, hopa, hopb]), hopa, hopb, if_pos hn,
      toNat_toWord (reverseLow_lt_two_pow _ hn), reverseLow_reverseLow hv]

end Sys2Proof.Proofs
end

section
/-! PROOFS. The fields of a frame (00_scope.md R15, 42_dcf77.md R200, 43_wwvb.md R230, 45_bpc.md R291): what the frame readers
give, bit by bit, and the packed digits of a field decoded. -/

namespace Sys2Proof.Proofs

open Sys2Proof.Machine

theorem toNat_getLsbD (f : Frame) (i : Nat) : (f.getLsbD i).toNat = f.toNat / 2 ^ i % 2 := Nat.toNat_testBit ..

/-! Sums over the bits of a field, from the top bit and from the bottom bit. -/

theorem lsbValue_succ (f : Frame) (p w : Nat) :
    lsbValue f p (w + 1) = lsbValue f p w + (f.getLsbD (p + w)).toNat * 2 ^ w := by
  simp [lsbValue, List.range_succ]

theorem msbValue_succ (f : Frame) (p w : Nat) :
    msbValue f p (w + 1) = (f.getLsbD p).toNat * 2 ^ w + msbValue f (p + 1) w := by
  simp [msbValue, List.range_succ_eq_map, Function.comp_def, Nat.add_right_comm, Nat.add_assoc, Nat.add_comm 1,
    Nat.sub_sub]

theorem symField_succ (f : Frame) (s n : Nat) : symField f s (n + 1) = 4 * symField f s n + symValue f (s + n) := by
  have hshift : ∀ i ∈ List.range n, symValue f (s + i) * 4 ^ (n - i) = 4 * (symValue f (s + i) * 4 ^ (n - 1 - i)) := by
    intro i hi
    rw [show n - i = n - 1 - i + 1 by have := List.mem_range.mp hi; omega, Nat.pow_succ]
    ring
  simp [symField, List.range_succ, List.map_congr_left hshift, List.sum_map_mul_left]

theorem msbValue_lt (f : Frame) (p w : Nat) : msbValue f p w < 2 ^ w := by
  induction w generalizing p with
  | zero => exact Nat.one_pos
  | succ w ih =>
    have hrest := ih (p + 1)
    have htop : (f.getLsbD p).toNat * 2 ^ w ≤ 1 * 2 ^ w := Nat.mul_le_mul_right _ (Bool.toNat_le _)
    rw [msbValue_succ, Nat.pow_succ]
    omega

/-! The readers of 00_scope.md R15 and 45_bpc.md R294, R295 as these sums. -/

@[simp] theorem getLSB_eq_lsbValue (f : Frame) (p w : Nat) : getLSB f p w = lsbValue f p w := by
  induction w with
  | zero => exact Nat.mod_one _
  | succ w ih =>
    rw [lsbValue_succ, ← ih, getLSB, Nat.mod_pow_succ, Nat.div_div_eq_div_mul, ← Nat.pow_add, ← toNat_getLsbD, Nat.mul_comm]
    rfl

theorem lsbValue_lt (f : Frame) (p w : Nat) : lsbValue f p w < 2 ^ w :=
  getLSB_eq_lsbValue f p w ▸ Nat.mod_lt _ (Nat.two_pow_pos w)

/-- The lowest bit of a field and the field above it. -/
theorem getLSB_succ_mod_two (f : Frame) (p w : Nat) : getLSB f p (w + 1) % 2 = (f.getLsbD p).toNat := by
  rw [getLSB, toNat_getLsbD, Nat.mod_mod_of_dvd _ (Dvd.intro_left _ (Nat.pow_succ ..).symm)]

theorem getLSB_succ_div_two (f : Frame) (p w : Nat) : getLSB f p (w + 1) / 2 = getLSB f (p + 1) w := by
  rw [getLSB, getLSB, Nat.pow_succ' (n := w), Nat.mod_mul_right_div_self, Nat.div_div_eq_div_mul, Nat.pow_succ]

@[simp] theorem getMSB_eq_msbValue (f : Frame) (p w : Nat) : getMSB f p w = msbValue f p w := by
  induction w generalizing p with
  | zero => rfl
  | succ w ih => rw [msbValue_succ, ← ih, getMSB, reverseLow, getLSB_succ_mod_two, getLSB_succ_div_two, getMSB]

@[simp] theorem symAt_eq_symValue (f : Frame) (s : Nat) : symAt f s = symValue f s := by
  rw [symAt, getLSB_eq_lsbValue, symValue, lsbValue_succ, lsbValue_succ]
  simp [lsbValue]
  ring

@[simp] theorem getSym_eq_symField (f : Frame) (s n : Nat) : getSym f s n = symField f s n := by
  induction n with
  | zero => rfl
  | succ n ih => rw [symField_succ, ← ih, getSym, symAt_eq_symValue]

theorem frameParity_eq_evenParityBit (f : Frame) {lo hi : Nat} (h : lo ≤ hi) :
    frameParity f lo hi = evenParityBit f.toNat lo hi :=
  parity_eq_evenParityBit h

/-! Packed digits of a field: no field is wide enough for the RANGE checks of R132 and R135 (41_records_common.md R188). -/

theorem unbcd_eq_bcdValue {x : Nat} (h : x < 2 ^ 8) : unbcd x = bcdValue x := by
  conv_lhs => rw [show x = x % 16 + 16 * (x / 16) + 256 * 0 by omega]
  rw [unbcd_nibbles (by omega) (by omega) (by omega), bcdValue]
  by_cases hdigits : x % 16 ≤ 9 ∧ x / 16 ≤ 9
  · rw [if_pos (by omega), if_pos (by omega), if_pos hdigits]
    congr 1
    omega
  · rw [if_neg (by omega), if_neg hdigits]

theorem unbcd5_eq_bcd5Value {x : Nat} (h : x < 2 ^ 12) : unbcd5 x = bcd5Value x := by
  conv_lhs => rw [show x = x % 32 + 32 * (x / 32 % 32) + 1024 * (x / 1024) by omega]
  rw [unbcd5_groups (by omega) (by omega) (by omega), bcd5Value]
  congr 2
  omega

theorem unbcd_lsbValue (f : Frame) (p : Nat) {w : Nat} (h : w ≤ 8) : unbcd (lsbValue f p w) = bcdValue (lsbValue f p w) :=
  unbcd_eq_bcdValue ((lsbValue_lt f p w).trans_le (Nat.pow_le_pow_right two_pos h))

theorem unbcd_msbValue (f : Frame) (p : Nat) {w : Nat} (h : w ≤ 8) : unbcd (msbValue f p w) = bcdValue (msbValue f p w) :=
  unbcd_eq_bcdValue ((msbValue_lt f p w).trans_le (Nat.pow_le_pow_right two_pos h))

theorem unbcd5_msbValue (f : Frame) (p : Nat) {w : Nat} (h : w ≤ 12) :
    unbcd5 (msbValue f p w) = bcd5Value (msbValue f p w) :=
  unbcd5_eq_bcd5Value ((msbValue_lt f p w).trans_le (Nat.pow_le_pow_right two_pos h))

end Sys2Proof.Proofs
end

section
/-! PROOFS. REC_FIELD and REC_VALID (41_records_common.md R182 to R184): the fields and the validity of each standard's frames
against the claims' tables, and the two commands' equations: O42 and O43. -/

namespace Sys2Proof.Proofs

open Sys2Proof.Machine

/-! Fields. -/

theorem fieldDcf77_eq_fieldResult (f : Frame) (fld : Field) : fieldDcf77 f fld = fieldResult .dcf77 f fld := by
  cases fld <;> simp [fieldDcf77, fieldResult, fieldCell, Machine.fieldValue, unbcd_lsbValue]

/-- WWVB's DST field is written out bit by bit in R236. -/
theorem msbValue_two (f : Frame) (p : Nat) : msbValue f p 2 = 2 * (f.getLsbD p).toNat + (f.getLsbD (p + 1)).toNat := by
  simp [msbValue, List.range_succ, Nat.mul_comm]

theorem fieldWwvb_eq_fieldResult (f : Frame) (fld : Field) : fieldWwvb f fld = fieldResult .wwvb f fld := by
  cases fld <;>
    simp [fieldWwvb, fieldResult, fieldCell, Machine.fieldValue, unbcd_msbValue, unbcd5_msbValue, msbValue_two]

theorem fieldBpc_eq_fieldResult (f : Frame) (fld : Field) : fieldBpc f fld = fieldResult .bpc f fld := by
  cases fld <;> simp [fieldBpc, fieldResult, fieldCell, Machine.fieldValue]

/-- The minute field of WWVB and JJY: the tens above a group of the pad bit and the units (44_jjy.md R260). -/
theorem msbValue_minute (f : Frame) :
    msbValue f 1 8 = 32 * msbValue f 1 3 + (16 * (f.getLsbD 4).toNat + msbValue f 5 4) := by
  simp only [msbValue_succ]
  simp [msbValue]
  omega

theorem bcd5Value_two_groups {tens units : Nat} (htens : tens ≤ 9) (hunits : units < 32) :
    bcd5Value (32 * tens + units) = if units ≤ 9 then .ok (10 * tens + units) else .error .format := by
  rw [bcd5Value, show (32 * tens + units) % 32 = units by omega, show (32 * tens + units) / 32 % 32 = tens by omega,
    show (32 * tens + units) / 1024 = 0 by omega]
  simp [htens]

/-- The minute decode of R262: the field fails exactly where it is malformed. -/
theorem unbcd5_minute (f : Frame) :
    unbcd5 (msbValue f 1 8) = if minuteMalformed f then .error .format else .ok (frameMinute f) := by
  have htens := msbValue_lt f 1 3
  have hunits := msbValue_lt f 5 4
  have hpad := Bool.toNat_le (f.getLsbD 4)
  rw [unbcd5_msbValue f 1 (by decide), msbValue_minute, bcd5Value_two_groups (by omega) (by omega), minuteMalformed,
    frameMinute]
  cases f.getLsbD 4 with
  | true => simp [show ¬16 + msbValue f 5 4 ≤ 9 by omega]
  | false =>
    by_cases hle : msbValue f 5 4 ≤ 9
    · simp [hle]
    · simp [hle, not_le.mp hle]

theorem frameCallsign_eq (f : Frame) :
    frameCallsign f = if minuteMalformed f then .error .format else .ok (callsignMinute f) := by
  rw [frameCallsign, getMSB_eq_msbValue, unbcd5_minute]
  split <;> rfl

theorem ordinaryOnly_eq (f : Frame) (v : Except ErrCode Nat) :
    ordinaryOnly f v =
      if minuteMalformed f then .error .format else if callsignMinute f then .error .unsupported else v := by
  rw [ordinaryOnly, frameCallsign_eq]
  split
  · rfl
  · cases callsignMinute f <;> rfl

theorem callsignOnly_eq (f : Frame) (v : Except ErrCode Nat) :
    callsignOnly f v =
      if minuteMalformed f then .error .format else if callsignMinute f then v else .error .unsupported := by
  rw [callsignOnly, frameCallsign_eq]
  split
  · rfl
  · cases callsignMinute f <;> rfl

theorem fieldJjy_eq_fieldResult (f : Frame) (fld : Field) : fieldJjy f fld = fieldResult .jjy f fld := by
  cases fld
  case callsign =>
    rw [fieldJjy, frameCallsign_eq]
    simp only [fieldResult, fieldCell, Machine.fieldValue, true_and]
    split <;> rfl
  all_goals
    simp [fieldJjy, fieldResult, fieldCell, Machine.fieldValue, ordinaryOnly_eq, callsignOnly_eq, unbcd_msbValue,
      unbcd5_msbValue, msbValue_two]

theorem fieldRecord_eq_fieldResult (std : Std) (f : Frame) (fld : Field) :
    fieldRecord std f fld = fieldResult std f fld := by
  cases std with
  | dcf77 => exact fieldDcf77_eq_fieldResult f fld
  | wwvb => exact fieldWwvb_eq_fieldResult f fld
  | jjy => exact fieldJjy_eq_fieldResult f fld
  | bpc => exact fieldBpc_eq_fieldResult f fld

theorem fieldOfCode_fieldCode (fld : Field) : fieldOfCode (fieldCode fld) = some fld := by
  cases fld <;> rfl

/-! Validity. -/

theorem validDcf77_iff (f : Frame) : validDcf77 f = true ↔ FrameValid .dcf77 f := by
  simp [validDcf77, FrameValid, frameParity_eq_evenParityBit, and_assoc]

theorem zeroPositions_all_iff (f : Frame) :
    zeroPositions.all (fun i => !f.getLsbD i) = true ↔ ∀ i ∈ fixedZeros, f.getLsbD i = false := by
  simp only [zeroPositions, fixedZeros, List.all_eq_true, Bool.not_eq_true']

theorem validWwvb_iff (f : Frame) : validWwvb f = true ↔ FrameValid .wwvb f := zeroPositions_all_iff f

theorem validJjy_iff (f : Frame) : validJjy f = true ↔ FrameValid .jjy f := by
  simp only [validJjy, FrameValid, Bool.and_eq_true, zeroPositions_all_iff, beq_iff_eq, and_assoc,
    frameParity_eq_evenParityBit f (show 12 ≤ 19 by decide), frameParity_eq_evenParityBit f (show 1 ≤ 9 by decide)]

theorem validSubframe_iff (f : Frame) (k : Nat) :
    validSubframe f k = true ↔
      symValue f (20 * k) = k ∧ f.getLsbD (40 * k + 20) = evenParityBit f.toNat (40 * k + 2) (40 * k + 20) ∧
        f.getLsbD (40 * k + 38) = evenParityBit f.toNat (40 * k + 22) (40 * k + 38) := by
  simp [validSubframe, frameParity_eq_evenParityBit, and_assoc]

theorem validBpc_iff (f : Frame) : validBpc f = true ↔ FrameValid .bpc f := by
  simp only [validBpc, FrameValid, List.all_eq_true, validSubframe_iff]
  exact forall_congr' fun k => imp_congr_left (by simp; omega)

theorem validRecord_iff (std : Std) (f : Frame) : validRecord std f = true ↔ FrameValid std f := by
  cases std with
  | dcf77 => exact validDcf77_iff f
  | wwvb => exact validWwvb_iff f
  | jjy => exact validJjy_iff f
  | bpc => exact validBpc_iff f

/-! The two commands. -/

@[simp] theorem commandEnd_requireFrame (s : State) (f : Unit → Except ErrCode State) :
    commandEnd s (requireFrame s >>= f) =
      if s.frameTag.present then commandEnd s (f ()) else .next (s.failed .noframe) :=
  commandEnd_require ..

@[simp] theorem commandEnd_map_requireFrame (s : State) (f : Unit → State) :
    commandEnd s (f <$> requireFrame s) = if s.frameTag.present then .next (f ()).endOk else .next (s.failed .noframe) :=
  commandEnd_map_require ..

theorem exec_recField (s : State) (fld : Field) :
    exec (.recField (fieldCode fld)) s =
      if s.frameTag.present then resultEnd s (fieldResult s.frameTag.std s.frame fld) else .next (s.failed .noframe) := by
  simp [exec, execRecField, fieldOfCode_fieldCode, fieldRecord_eq_fieldResult]

theorem exec_recValid (s : State) :
    exec .recValid s =
      if s.frameTag.present then .next (s.succeeded (toWord (validRecord s.frameTag.std s.frame).toNat) 0)
      else .next (s.failed .noframe) := by
  simp [exec, execRecValid]

/-- Settles O42: the field readers are the claims' field tables, standard by standard. -/
theorem recFieldResult : Obligations.RecFieldResult := by
  intro s fld
  refine ⟨fun hp => by simp [exec_recField, hp], fun hp => ?_⟩
  rw [exec_recField, if_pos hp]
  exact ⟨fun v hv => by rw [hv]; rfl, fun e he => by rw [he]; rfl⟩

/-- Settles O43: the validity rules are the claims' conditions, standard by standard. -/
theorem recValidResult : Obligations.RecValidResult := by
  intro s
  refine ⟨fun hp => by simp [exec_recValid, hp], fun hp => ?_⟩
  rw [exec_recValid, if_pos hp, ← validRecord_iff]
  exact ⟨fun hv => by rw [hv]; rfl, fun hv => by rw [Bool.eq_false_of_not_eq_true hv]; rfl⟩

end Sys2Proof.Proofs
end

section
/-! PROOFS. REC_LOAD, REC_RAW and REC_SYM (41_records_common.md R179 to R181): the raw forms of a frame bit by bit, and the
commands' equations: O39, O40 and O41. -/

namespace Sys2Proof.Proofs

open Sys2Proof.Machine

/-! Raw frames. -/

/-- A 60-bit load bit by bit: both orders are a SETBITS value's of width 60. -/
theorem getLsbD_loadFrame60 (msb : Bool) {raw : Word} (h : raw.toNat < 2 ^ 60) (j : Nat) :
    (loadFrame60 msb raw.toNat).getLsbD j = (decide (j < 60) && raw.getLsbD (if msb then 59 - j else j)) := by
  have hfield : (loadFrame60 msb raw.toNat).getLsbD j = (decide (j < 128) && (fieldValue msb raw.toNat 60).testBit j) :=
    BitVec.getLsbD_ofNat ..
  rw [hfield, testBit_fieldValue msb h]
  by_cases hj : j < 60
  · simp [hj, show j < 128 by omega, BitVec.getLsbD]
  · simp [hj]

theorem rawValue_lt (msb : Bool) (f : Frame) : rawValue msb f < 2 ^ 60 := by
  cases msb with
  | true => exact reverseLow_lt _ 60
  | false => exact Nat.mod_lt _ (by decide)

theorem testBit_rawValue (msb : Bool) (f : Frame) (j : Nat) :
    (rawValue msb f).testBit j = (decide (j < 60) && f.getLsbD (if msb then 59 - j else j)) := by
  cases msb with
  | true => exact testBit_reverseLow f.toNat 60 j
  | false =>
    have hlow : rawValue false f = f.toNat % 2 ^ 60 := congrArg (· % 2 ^ 60) (Nat.div_one f.toNat)
    rw [hlow, Nat.testBit_mod_two_pow]
    rfl

/-! One equation for each command. -/

@[simp] theorem commandEnd_operandBits (s : State) (r : Reg) (f : Word → Except ErrCode State) :
    commandEnd s (operandBits r >>= f) = if r.written then commandEnd s (f r.value) else .next (s.failed .uninit) := by
  cases h : r.written <;> simp [operandBits, h]

theorem recLoad60_eq (std : Std) (msb : Bool) (s : State) :
    recLoad60 std msb s =
      if s.opa.written then
        if s.opa.value.toNat < 2 ^ 60 then .next (s.recorded std (loadFrame60 msb s.opa.value.toNat))
        else .next (s.failed .range)
      else .next (s.failed .uninit) := by
  simp [recLoad60]

theorem exec_recLoadBpc (msb : Bool) (s : State) :
    exec (.recLoadBpc msb) s =
      if OperandsWritten (.recLoadBpc msb) s then
        if msb then .next (s.failed .unsupported)
        else if s.opb.value.toNat < 2 ^ 56 then .next (s.recorded .bpc (s.opb.value ++ s.opa.value))
        else .next (s.failed .range)
      else .next (s.failed .uninit) := by
  cases msb <;> simp [exec, execRecLoadBpc, recLoad120, OperandsWritten, operandsRead, ite_and]

theorem exec_recRaw (msb : Bool) (s : State) :
    exec (.recRaw msb) s =
      if s.frameTag.present then
        if s.frameTag.std = .bpc then .next (s.failed .unsupported)
        else .next (s.succeeded (toWord (rawValue msb s.frame)) 0)
      else .next (s.failed .noframe) := by
  simp [exec, execRecRaw]

theorem exec_recSym (s : State) :
    exec .recSym s =
      if OperandsWritten .recSym s then
        if s.frameTag.present then
          if s.frameTag.std = .bpc then
            if s.opa.value.toNat ≤ 59 then .next (s.succeeded (toWord (symValue s.frame s.opa.value.toNat)) 0)
            else .next (s.failed .range)
          else .next (s.failed .unsupported)
        else .next (s.failed .noframe)
      else .next (s.failed .uninit) := by
  simp [exec, execRecSym, OperandsWritten, operandsRead]

/-- A 60-bit load of any of the three standards. -/
theorem recLoad60_result {i : Instr} {std : Std} {msb : Bool} {s : State} (hexec : exec i s = recLoad60 std msb s)
    (hread : OperandsWritten i s ↔ s.opa.written = true) :
    (¬OperandsWritten i s → exec i s = .next (s.failed .uninit)) ∧
      (OperandsWritten i s → s.opa.value.toNat < 2 ^ 60 →
        ∃ f, exec i s = .next (s.recorded std f) ∧
          ∀ j, f.getLsbD j = (decide (j < 60) && s.opa.value.getLsbD (if msb then 59 - j else j))) ∧
      (OperandsWritten i s → 2 ^ 60 ≤ s.opa.value.toNat → exec i s = .next (s.failed .range)) := by
  rw [hexec, hread, recLoad60_eq]
  refine ⟨fun hw => if_neg hw, fun hw hlt => ⟨_, ?_, getLsbD_loadFrame60 msb hlt⟩, fun hw hge => ?_⟩
  · rw [if_pos hw, if_pos hlt]
  · rw [if_pos hw, if_neg (not_lt.mpr hge)]

/-- Settles O39: one proof for the three 60-bit standards, and BPC's own checks. -/
theorem recLoadResult : Obligations.RecLoadResult := by
  intro s msb
  refine ⟨fun i std hi => ?_, fun hw => by rw [exec_recLoadBpc, if_neg hw], fun hw => ?_⟩
  · fin_cases hi <;> exact recLoad60_result rfl (by simp [OperandsWritten, operandsRead])
  · rw [exec_recLoadBpc, if_pos hw]
    refine ⟨fun hm => if_pos hm, fun hm hlt => ?_, fun hm hge => ?_⟩
    · refine ⟨s.opb.value ++ s.opa.value, ?_, fun j => BitVec.getLsbD_append⟩
      rw [if_neg (by simp [hm]), if_pos hlt]
    · rw [if_neg (by simp [hm]), if_neg (not_lt.mpr hge)]

/-- Settles O40: REC_RAW's two checks, and its value bit by bit. -/
theorem recRawResult : Obligations.RecRawResult := by
  intro s msb
  refine ⟨fun hp => by simp [exec_recRaw, hp], fun hp => ?_⟩
  rw [exec_recRaw, if_pos hp]
  refine ⟨fun hstd => ⟨_, if_neg hstd, fun j => ?_⟩, fun hstd => if_pos hstd⟩
  rw [getLsbD_toWord ((rawValue_lt msb s.frame).trans (by decide)), testBit_rawValue]

/-- Settles O41: REC_SYM's four checks in their order, and the symbol's two bits. -/
theorem recSymResult : Obligations.RecSymResult := by
  intro s
  refine ⟨fun hw => by rw [exec_recSym, if_neg hw], fun hw hp => by rw [exec_recSym, if_pos hw]; simp [hp],
    fun hw hp => ?_⟩
  rw [exec_recSym, if_pos hw, if_pos hp]
  refine ⟨fun hstd => if_neg hstd, fun hstd hle => ?_, fun hstd hgt => ?_⟩
  · rw [if_pos hstd, if_pos hle, toWord]
  · rw [if_pos hstd, if_neg (not_le.mpr hgt)]

end Sys2Proof.Proofs
end

section
/-! PROOFS. REC_ENCODE (41_records_common.md R173, R178): the time-input checks as one condition on the input words: O32. -/

namespace Sys2Proof.Proofs

open Sys2Proof.Machine

theorem fieldAt_eq_extractLsb' (v : Word) (lo w : Nat) : fieldAt v lo w = (v.extractLsb' lo w).toNat := by
  rw [BitVec.extractLsb'_toNat, Nat.shiftRight_eq_div_pow, fieldAt]

/-- TIN0's fields at the bits of 10_state.md R38. -/
theorem encodeTin_eq (std : Std) (t0 t1 : Word) :
    encodeTin std t0 t1 =
      encodeRecord std (yearBits t0) (monthBits t0) (dayBits t0) (hourBits t0) (minuteBits t0) t1 := by
  simp only [encodeTin, tinYear, tinMonth, tinDay, tinHour, tinMinute, fieldAt_eq_extractLsb']

theorem and_eq_zero_iff (x mask : Word) :
    x &&& mask = 0 ↔ ∀ i, i < 64 → mask.getLsbD i = true → x.getLsbD i = false := by
  rw [BitVec.and_comm]
  simp [BitVec.eq_of_getLsbD_eq_iff, Bool.and_eq_false_imp]

/-- TIN1's reserved bits as 10_state.md R39 lists them. -/
theorem tin1ReservedMask_iff {i : Nat} (hi : i < 64) :
    tin1ReservedMask.getLsbD i = true ↔
      (5 ≤ i ∧ i ≤ 7) ∨ (9 ≤ i ∧ i ≤ 11) ∨ (17 ≤ i ∧ i ≤ 23) ∨ (26 ≤ i ∧ i ≤ 31) ∨ 38 ≤ i := by
  revert i
  decide

/-- Two checks with one code are one check. -/
theorem require_bind_require (c d : Bool) (e : ErrCode) : (require c e >>= fun _ => require d e) = require (c && d) e := by
  cases c <;> rfl

theorem checkTin1_eq (std : Std) (t1 : Word) :
    checkTin1 std t1 = require (decide (std = .wwvb → (t1.extractLsb' 12 4).toNat ≤ 9)) .range := by
  cases std <;> simp [checkTin1, wwvbTin1Legal, wwvbDut1, fieldAt_eq_extractLsb']

/-- The eight checks of R173, all RANGE, pass exactly on legal inputs. -/
theorem checks_eq (std : Std) (t0 t1 : Word) :
    (checkTime t0 t1 >>= fun _ => checkTin1 std t1) = require (decide (TimeLegal std t0 t1)) .range := by
  have hreserved : t1 &&& tin1ReservedMask = 0 ↔
      ∀ i, i < 64 → (5 ≤ i ∧ i ≤ 7) ∨ (9 ≤ i ∧ i ≤ 11) ∨ (17 ≤ i ∧ i ≤ 23) ∨ (26 ≤ i ∧ i ≤ 31) ∨ 38 ≤ i →
        t1.getLsbD i = false := by
    rw [and_eq_zero_iff]
    exact forall₂_congr fun i hi => imp_congr_left (tin1ReservedMask_iff hi)
  have htop : (t0.extractLsb' 48 16).toNat = 0 ↔ t0.extractLsb' 48 16 = 0 := BitVec.toNat_inj (y := 0)
  simp only [checkTime, checkTin1_eq, require_bind_require, tinReserved, tinYear, tinMonth, tinDay, tinHour, tinMinute,
    fieldAt_eq_extractLsb']
  congr 1
  rw [Bool.eq_iff_iff]
  simp only [Bool.and_eq_true, decide_eq_true_eq, beq_iff_eq, hreserved, htop, TimeLegal, DateLegal, and_assoc]

theorem operandsWritten_recEncode (std : Std) (s : State) :
    OperandsWritten (recEncodeInstr std) s ↔ s.tin0.written = true ∧ s.tin1.written = true := by
  cases std <;> simp [OperandsWritten, operandsRead, recEncodeInstr]

theorem exec_recEncode (std : Std) (s : State) :
    exec (recEncodeInstr std) s =
      if OperandsWritten (recEncodeInstr std) s then
        if TimeLegal std s.tin0.value s.tin1.value then
          .next (s.recorded std (encodeTin std s.tin0.value s.tin1.value))
        else .next (s.failed .range)
      else .next (s.failed .uninit) := by
  have hexec : exec (recEncodeInstr std) s = recEncode std s := by cases std <;> rfl
  rw [hexec, recEncode, commandEnd_operandBits, commandEnd_operandBits, ← bind_assoc, checks_eq, commandEnd_require]
  simp only [operandsWritten_recEncode, ite_and, decide_eq_true_eq]
  rfl

/-- Settles O32: the operand reads, the one condition the eight checks make, and the record of TIN0's fields. -/
theorem recEncodeChecksItsInputs : Obligations.RecEncodeChecksItsInputs := by
  intro std s
  refine ⟨fun hw => by rw [exec_recEncode, if_neg hw], fun hw => ?_⟩
  rw [exec_recEncode, if_pos hw, ← encodeTin_eq]
  exact ⟨fun hlegal => if_pos hlegal, fun hillegal => if_neg hillegal⟩

end Sys2Proof.Proofs
end

section
/-! PROOFS. Who writes FRAME and FRAME_TAG (41_records_common.md R186): what each kind of next event does to them, and O18. -/

namespace Sys2Proof.Proofs

open Sys2Proof.Machine

/-- FRAME and FRAME_TAG hold in t what they hold in s. -/
def FrameKept (s t : State) : Prop := t.frame = s.frame ∧ t.frameTag = s.frameTag

/-- No host access writes the frame (10_state.md R32, R46, R47). -/
theorem hostAccess_keeps_frame {op : HostOp} {s t : State} (h : hostAccess op s = .next t) : FrameKept s t := by
  cases op with
  | writeReg offset bits v =>
    rcases hostWriteReg_cases offset bits v s with ⟨-, hw⟩ | ⟨r, -, ⟨-, -, hw⟩ | ⟨-, hw⟩⟩
    · cases hw.symm.trans h
    · cases hw.symm.trans h
      exact ⟨rfl, rfl⟩
    · cases hw.symm.trans h
      exact ⟨writeRegister_frame r v s, by cases r <;> rfl⟩
  | readReg offset bits =>
    rcases hostReadReg_cases offset bits s with ⟨-, hr⟩ | ⟨r, -, ⟨-, hr⟩ | ⟨v, -, hr⟩⟩
    · cases hr.symm.trans h
    · cases hr.symm.trans h
      exact ⟨rfl, rfl⟩
    · cases hr.symm.trans h
      exact ⟨rfl, rfl⟩
  | readPcm addr n seesNew =>
    rcases hostReadPcm_cases addr n seesNew s with hr | ⟨a, hr⟩ | ⟨v, hr⟩
    · cases hr.symm.trans h
    · cases hr.symm.trans h
    · cases hr.symm.trans h
      exact ⟨rfl, rfl⟩

/-- A command keeps the frame, or it is a successful REC_ENCODE or REC_LOAD and replaces it whole. -/
theorem exec_frame_cases {i : Instr} {s t : State} (h : exec i s = .next t) :
    FrameKept s t ∨ (writesFrame i = true ∧ ∃ std f, t = s.recorded std f) := by
  rcases exec_cases h with ⟨e, rfl⟩ | ⟨-, rfl⟩ | ⟨-, -, -, r0, r1, rfl⟩ | ⟨-, hwrites, -, hrecord⟩ | ⟨-, job, -, rfl⟩
  · exact .inl ⟨rfl, rfl⟩
  · exact .inl ⟨rfl, rfl⟩
  · exact .inl ⟨rfl, rfl⟩
  · exact .inr ⟨hwrites, hrecord⟩
  · exact .inl ⟨rfl, rfl⟩

/-- The end of whatever runs keeps the frame, or is that of a running REC_ENCODE or REC_LOAD. -/
theorem endRunning_frame_cases {s t : State} (h : endRunning s = .next t) :
    FrameKept s t ∨
      ∃ i std f, s.status.busy = true ∧ decode s.cmd.value = .ok i ∧ writesFrame i = true ∧ t = s.recorded std f := by
  cases hbusy : s.status.busy with
  | false =>
    simp only [endRunning, hbusy] at h
    cases h
    exact .inl ⟨rfl, rfl⟩
  | true =>
    simp only [endRunning, hbusy, if_true, runCommand] at h
    cases hdecode : decode s.cmd.value with
    | error e =>
      simp only [hdecode] at h
      cases h
      exact .inl ⟨rfl, rfl⟩
    | ok i =>
      simp only [hdecode] at h
      exact (exec_frame_cases h).imp_right fun ⟨hwrites, std, f, ht⟩ => ⟨i, std, f, rfl, rfl, hwrites, ht⟩

/-- Settles O18: by what is next. A reset clears the tag; a host access keeps the frame; a command's end writes a record
or keeps it. -/
theorem frameChangesOnlyByEncodeOrLoad : Obligations.FrameChangesOnlyByEncodeOrLoad := by
  intro s t hstep hchange
  have hnotKept : ¬FrameKept s t := fun ⟨hframe, htag⟩ => hchange.elim (· hframe) (· htag)
  cases hevents : s.events with
  | nil =>
    rw [step_of_no_event hevents] at hstep
    obtain ⟨i, std, f, hbusy, hdecode, hwrites, rfl⟩ := (endRunning_frame_cases hstep).resolve_left hnotKept
    exact .inr ⟨i, std, f, hbusy, hdecode, hwrites, rfl⟩
  | cons event rest =>
    cases event with
    | host op =>
      rw [step_of_host hevents] at hstep
      exact absurd (hostAccess_keeps_frame hstep) hnotKept
    | commandEnd =>
      rw [step_of_commandEnd hevents] at hstep
      obtain ⟨i, std, f, hbusy, hdecode, hwrites, rfl⟩ := (endRunning_frame_cases hstep).resolve_left hnotKept
      exact .inr ⟨i, std, f, hbusy, hdecode, hwrites, rfl⟩
    | reset =>
      rw [step_of_reset hevents] at hstep
      cases hstep
      exact .inl ⟨rest, rfl, rfl, rfl, rfl⟩

end Sys2Proof.Proofs
end

section
/-! PROOFS. The frame writers (00_scope.md R15, 45_bpc.md R294): what each puts in its own field, and that it leaves every
other field as it was. -/

namespace Sys2Proof.Proofs

open Sys2Proof.Machine

/-! A field's value depends on its own bits alone. -/

theorem lsbValue_congr {f g : Frame} {p w : Nat} (h : ∀ i, p ≤ i → i < p + w → f.getLsbD i = g.getLsbD i) :
    lsbValue f p w = lsbValue g p w := by
  refine congrArg List.sum (List.map_congr_left fun i hi => ?_)
  rw [h (p + i) (by omega) (by have := List.mem_range.mp hi; omega)]

theorem msbValue_congr {f g : Frame} {p w : Nat} (h : ∀ i, p ≤ i → i < p + w → f.getLsbD i = g.getLsbD i) :
    msbValue f p w = msbValue g p w := by
  refine congrArg List.sum (List.map_congr_left fun i hi => ?_)
  rw [h (p + i) (by omega) (by have := List.mem_range.mp hi; omega)]

theorem symField_congr {f g : Frame} {s n : Nat} (h : ∀ i, 2 * s ≤ i → i < 2 * (s + n) → f.getLsbD i = g.getLsbD i) :
    symField f s n = symField g s n := by
  refine congrArg List.sum (List.map_congr_left fun i hi => ?_)
  have := List.mem_range.mp hi
  rw [symValue, symValue, h _ (by omega) (by omega), h _ (by omega) (by omega)]

theorem evenParityBit_congr {f g : Frame} {lo hi : Nat} (h : ∀ i, lo ≤ i → i < hi → f.getLsbD i = g.getLsbD i) :
    evenParityBit f.toNat lo hi = evenParityBit g.toNat lo hi := by
  have hones : onesIn f.toNat lo hi = onesIn g.toNat lo hi := by
    refine congrArg List.length (List.filter_congr fun i hi => ?_)
    exact h (lo + i) (by omega) (by have := List.mem_range.mp hi; omega)
  rw [evenParityBit, hones, evenParityBit]

/-! `putLSB`, which `putBit` and `putParity` are for one bit, and `putMSB`. -/

theorem getLsbD_putLSB (f : Frame) (p w v i : Nat) :
    (putLSB f p w v).getLsbD i =
      if p ≤ i ∧ i < p + w then decide (i < 128) && v.testBit (i - p) else f.getLsbD i := by
  simp only [putLSB, lowmask, BitVec.getLsbD_or, BitVec.getLsbD_and, BitVec.getLsbD_not, BitVec.getLsbD_shiftLeft,
    BitVec.getLsbD_ofNat, Nat.testBit_two_pow_sub_one, Nat.testBit_mod_two_pow]
  by_cases h128 : i < 128
  · by_cases hp : i < p
    · simp [h128, hp, not_le.mpr hp]
    · by_cases hw : i < p + w
      · simp [h128, hp, not_lt.mp hp, hw, show i - p < 128 by omega, show i - p < w by omega]
      · simp [h128, hp, hw, show ¬i - p < w by omega]
  · simp [h128, BitVec.getLsbD_of_ge f i (not_lt.mp h128)]

theorem getLsbD_putLSB_of_outside (f : Frame) {p w i : Nat} (v : Nat) (h : i < p ∨ p + w ≤ i) :
    (putLSB f p w v).getLsbD i = f.getLsbD i := by
  rw [getLsbD_putLSB, if_neg (by omega)]

theorem lsbValue_putLSB_of_disjoint (f : Frame) {p w q n : Nat} (v : Nat) (h : q + n ≤ p ∨ p + w ≤ q) :
    lsbValue (putLSB f p w v) q n = lsbValue f q n :=
  lsbValue_congr fun _ _ _ => getLsbD_putLSB_of_outside f v (by omega)

theorem msbValue_putLSB_of_disjoint (f : Frame) {p w q n : Nat} (v : Nat) (h : q + n ≤ p ∨ p + w ≤ q) :
    msbValue (putLSB f p w v) q n = msbValue f q n :=
  msbValue_congr fun _ _ _ => getLsbD_putLSB_of_outside f v (by omega)

theorem evenParityBit_putLSB_of_disjoint (f : Frame) {p w lo hi : Nat} (v : Nat) (h : hi ≤ p ∨ p + w ≤ lo) :
    evenParityBit (putLSB f p w v).toNat lo hi = evenParityBit f.toNat lo hi :=
  evenParityBit_congr fun _ _ _ => getLsbD_putLSB_of_outside f v (by omega)

theorem getLsbD_putMSB_of_outside (f : Frame) {p w i : Nat} (v : Nat) (h : i < p ∨ p + w ≤ i) :
    (putMSB f p w v).getLsbD i = f.getLsbD i :=
  getLsbD_putLSB_of_outside f _ h

theorem msbValue_putMSB_of_disjoint (f : Frame) {p w q n : Nat} (v : Nat) (h : q + n ≤ p ∨ p + w ≤ q) :
    msbValue (putMSB f p w v) q n = msbValue f q n :=
  msbValue_putLSB_of_disjoint f _ h

theorem testBit_lsbValue (f : Frame) (p w i : Nat) :
    (lsbValue f p w).testBit i = (decide (i < w) && f.getLsbD (p + i)) := by
  rw [← getLSB_eq_lsbValue, getLSB, Nat.testBit_mod_two_pow, Nat.testBit_div_two_pow, Nat.add_comm i]
  rfl

theorem lsbValue_putLSB_same (f : Frame) {p w v : Nat} (hfit : p + w ≤ 128) (hv : v < 2 ^ w) :
    lsbValue (putLSB f p w v) p w = v := by
  refine Nat.eq_of_testBit_eq fun i => ?_
  rw [testBit_lsbValue, getLsbD_putLSB]
  by_cases hi : i < w
  · simp [hi, show p + i < 128 by omega]
  · simp [hi, testBit_eq_false_of_le hv (not_lt.mp hi)]

theorem msbValue_eq_reverseLow (f : Frame) (p w : Nat) : msbValue f p w = reverseLow (lsbValue f p w) w := by
  rw [← getMSB_eq_msbValue, getMSB, getLSB_eq_lsbValue]

theorem msbValue_putMSB_same (f : Frame) {p w v : Nat} (hfit : p + w ≤ 128) (hv : v < 2 ^ w) :
    msbValue (putMSB f p w v) p w = v := by
  rw [msbValue_eq_reverseLow, putMSB, lsbValue_putLSB_same f hfit (reverseLow_lt v w), reverseLow_reverseLow hv]

/-- The bit `putBit` and `putParity` put. -/
theorem getLsbD_putLSB_toNat (f : Frame) {p : Nat} (b : Bool) (hfit : p < 128) :
    (putLSB f p 1 b.toNat).getLsbD p = b := by
  rw [getLsbD_putLSB, if_pos (by omega)]
  cases b <;> simp [hfit]

/-! `putSym`. -/

theorem symValue_eq_lsbValue (f : Frame) (s : Nat) : symValue f s = lsbValue f (2 * s) 2 := by
  rw [← symAt_eq_symValue, symAt, getLSB_eq_lsbValue]

theorem symField_one (f : Frame) (s : Nat) : symField f s 1 = symValue f s := by simp [symField]

theorem getLsbD_putSym_of_outside (f : Frame) {s n i : Nat} (v : Nat) (h : i < 2 * s ∨ 2 * (s + n) ≤ i) :
    (putSym f s n v).getLsbD i = f.getLsbD i := by
  induction n generalizing v with
  | zero => rfl
  | succ n ih => rw [putSym, getLsbD_putLSB_of_outside _ _ (by omega), ih _ (by omega)]

theorem symField_putSym_of_disjoint (f : Frame) {s n q k : Nat} (v : Nat) (h : q + k ≤ s ∨ s + n ≤ q) :
    symField (putSym f s n v) q k = symField f q k :=
  symField_congr fun _ _ _ => getLsbD_putSym_of_outside f v (by omega)

theorem evenParityBit_putSym_of_disjoint (f : Frame) {s n lo hi : Nat} (v : Nat) (h : hi ≤ 2 * s ∨ 2 * (s + n) ≤ lo) :
    evenParityBit (putSym f s n v).toNat lo hi = evenParityBit f.toNat lo hi :=
  evenParityBit_congr fun _ _ _ => getLsbD_putSym_of_outside f v (by omega)

theorem symField_putSym_same (f : Frame) {s n v : Nat} (hfit : s + n ≤ 64) (hv : v < 4 ^ n) :
    symField (putSym f s n v) s n = v := by
  induction n generalizing v with
  | zero =>
    simp only [symField, List.range_zero, List.map_nil, List.sum_nil]
    omega
  | succ n ih =>
    have hhigh : symField (putSym f s (n + 1) v) s n = v / 4 := by
      rw [← ih (by omega) (by omega : v / 4 < 4 ^ n)]
      exact symField_congr fun i _ _ => getLsbD_putLSB_of_outside _ _ (by omega)
    have hlow : symValue (putSym f s (n + 1) v) (s + n) = v % 4 := by
      rw [symValue_eq_lsbValue, putSym, lsbValue_putLSB_same _ (by omega) (by omega)]
    rw [symField_succ, hhigh, hlow]
    omega

/-- A symbol of two flags: BPC's half-day or century bit above a parity bit (45_bpc.md R292, R293). -/
theorem symField_putSym_pair (f : Frame) {s a : Nat} (b : Bool) (hfit : s < 64) (ha : a < 2) :
    symField (putSym f s 1 (2 * a + b.toNat)) s 1 = 2 * a + b.toNat :=
  symField_putSym_same f (by omega) (by have := b.toNat_lt; omega)

theorem two_mul_add_toNat_div_two (a : Nat) (b : Bool) : (2 * a + b.toNat) / 2 = a := by
  have := b.toNat_lt
  omega

theorem symValue_div_two (f : Frame) (s : Nat) : symValue f s / 2 = (f.getLsbD (2 * s + 1)).toNat :=
  two_mul_add_toNat_div_two ..

end Sys2Proof.Proofs
end

section
/-! PROOFS. The records REC_ENCODE makes (42_dcf77.md R201, 43_wwvb.md R234, 44_jjy.md R263, 45_bpc.md R294): every time
input fits its field, so each field of the frame holds it whole. -/

namespace Sys2Proof.Proofs

open Sys2Proof.Machine

/-! Bounds of the calendar (41_records_common.md R175 to R177, 43_wwvb.md R232). -/

theorem dowSun0_lt (y mo d : Nat) : dowSun0 y mo d < 7 := Nat.mod_lt _ (by decide)

theorem dowIso_lt (y mo d : Nat) : dowIso y mo d < 8 := by
  have := dowSun0_lt y mo d
  rw [dowIso]
  split <;> omega

theorem daysInMonth_le (y mo : Nat) : daysInMonth y mo ≤ 31 := by
  unfold daysInMonth
  cases isLeap y <;> split <;> simp

theorem daysOfMonths_le (y : Nat) {n : Nat} (h : n ≤ 12) : daysOfMonths y n ≤ 366 := by
  have hmono : Monotone (daysOfMonths y) := monotone_nat_of_le_succ fun _ => Nat.le_add_right ..
  have hyear : daysOfMonths y 12 ≤ 366 := by
    simp only [daysOfMonths, daysInMonth]
    cases isLeap y <;> decide
  exact (hmono h).trans hyear

theorem dayOfYear_le {y mo d : Nat} (hmo : 1 ≤ mo ∧ mo ≤ 12) (hd : d ≤ daysInMonth y mo) : dayOfYear y mo d ≤ 366 := by
  have hmonths := daysOfMonths_le y hmo.2
  obtain ⟨n, rfl⟩ := Nat.exists_eq_add_of_le' hmo.1
  rw [daysOfMonths] at hmonths
  rw [dayOfYear, Nat.add_sub_cancel]
  omega

theorem usDst_lt (y mo d : Nat) : usDst y mo d < 4 := by
  simp only [usDst]
  split_ifs <;> omega

theorem bcd_eq_bcdOf {v : Nat} (h : v ≤ 99) : bcd v = bcdOf v := by
  rw [bcd_eq, bcdOf]
  omega

/-! DCF77. -/

/-- The frame of R200, bit by bit: each write stands in its own bits and later writes leave them. -/
theorem encodeDcf77_layout {y mo d h m : Nat} (t1 : Word) (hlegal : DateLegal y mo d h m) :
    let f := encodeDcf77 y mo d h m t1
    (∀ i, i ≤ 14 → f.getLsbD i = false) ∧
      (∀ i, i < 5 → f.getLsbD (15 + i) = t1.getLsbD i) ∧
      f.getLsbD 20 = true ∧
      lsbValue f 21 7 = bcdOf m ∧ f.getLsbD 28 = evenParityBit f.toNat 21 28 ∧
      lsbValue f 29 6 = bcdOf h ∧ f.getLsbD 35 = evenParityBit f.toNat 29 35 ∧
      lsbValue f 36 6 = bcdOf d ∧ lsbValue f 42 3 = dowIso y mo d ∧ lsbValue f 45 5 = bcdOf mo ∧
      lsbValue f 50 8 = bcdOf (y % 100) ∧ f.getLsbD 58 = evenParityBit f.toNat 36 58 ∧
      ∀ i, 59 ≤ i → f.getLsbD i = false := by
  obtain ⟨-, -, -, hmo, -, hday, hh, hm⟩ := hlegal
  have hd := hday.trans (daysInMonth_le y mo)
  have hminute : bcdOf m < 2 ^ 7 := by rw [bcdOf]; omega
  have hhour : bcdOf h < 2 ^ 6 := by rw [bcdOf]; omega
  have hday : bcdOf d < 2 ^ 6 := by rw [bcdOf]; omega
  have hmonth : bcdOf mo < 2 ^ 5 := by rw [bcdOf]; omega
  have hyear : bcdOf (y % 100) < 2 ^ 8 := by rw [bcdOf]; omega
  have hweekday : dowIso y mo d < 2 ^ 3 := dowIso_lt y mo d
  simp only [encodeDcf77, putParity, putBit]
  refine ⟨fun i hi => ?_, fun i hi => ?flags, ?_, ?_, ?_, ?_, ?_, ?_, ?_, ?_, ?_, ?_, fun i hi => ?_⟩
  case flags =>
    interval_cases i <;> simp (disch := omega) only [getLsbD_putLSB_of_outside, getLsbD_putLSB_toNat] <;> rfl
  all_goals
    simp (disch := omega) only [getLsbD_putLSB_of_outside, lsbValue_putLSB_of_disjoint,
      evenParityBit_putLSB_of_disjoint, getLsbD_putLSB_toNat, lsbValue_putLSB_same, frameParity_eq_evenParityBit,
      bcd_eq_bcdOf, BitVec.ofNat_eq_ofNat, BitVec.getLsbD_zero]

/-! WWVB. -/

/-- The fields of R230. -/
theorem encodeWwvb_fields {y mo d h m : Nat} (t1 : Word) (hlegal : DateLegal y mo d h m) :
    let f := encodeWwvb y mo d h m t1
    msbValue f 1 8 = bcd5 m ∧ msbValue f 12 7 = bcd5 h ∧ msbValue f 22 12 = bcd5 (dayOfYear y mo d) ∧
      msbValue f 36 3 = dut1SignCode (wwvbDut1Neg t1) ∧ msbValue f 40 4 = wwvbDut1 t1 ∧
      msbValue f 45 9 = bcd5 (y % 100) ∧ f.getLsbD 55 = isLeap y ∧ f.getLsbD 56 = wwvbLs t1 ∧
      msbValue f 57 2 = usDst y mo d := by
  obtain ⟨-, -, hmo1, hmo, -, hday, hh, hm⟩ := hlegal
  have hdoy := dayOfYear_le ⟨hmo1, hmo⟩ hday
  have hminute : bcd5 m < 2 ^ 8 := by rw [bcd5_eq]; omega
  have hhour : bcd5 h < 2 ^ 7 := by rw [bcd5_eq]; omega
  have hdayOfYear : bcd5 (dayOfYear y mo d) < 2 ^ 12 := by rw [bcd5_eq]; omega
  have hyear : bcd5 (y % 100) < 2 ^ 9 := by rw [bcd5_eq]; omega
  have hsign : dut1SignCode (wwvbDut1Neg t1) < 2 ^ 3 := by cases wwvbDut1Neg t1 <;> decide
  have hdut1 : wwvbDut1 t1 < 2 ^ 4 := Nat.mod_lt _ (by decide)
  have hdst : usDst y mo d < 2 ^ 2 := usDst_lt y mo d
  simp only [encodeWwvb, putBit]
  refine ⟨?_, ?_, ?_, ?_, ?_, ?_, ?_, ?_, ?_⟩ <;>
    simp (disch := omega) only [getLsbD_putLSB_of_outside, getLsbD_putMSB_of_outside, msbValue_putLSB_of_disjoint,
      msbValue_putMSB_of_disjoint, getLsbD_putLSB_toNat, msbValue_putMSB_same]

/-! JJY. -/

theorem isCallsign_iff (m : Nat) : isCallsign m = true ↔ m = 15 ∨ m = 45 := by simp [isCallsign]

/-- The fields of R260 and R261, in both kinds of minute. -/
theorem encodeJjy_fields {y mo d h m : Nat} (t1 : Word) (hlegal : DateLegal y mo d h m) :
    let f := encodeJjy y mo d h m t1
    msbValue f 1 8 = bcd5 m ∧ msbValue f 12 7 = bcd5 h ∧ msbValue f 22 12 = bcd5 (dayOfYear y mo d) ∧
      (isCallsign m = false →
        msbValue f 41 8 = bcd (y % 100) ∧ msbValue f 50 3 = dowSun0 y mo d ∧ f.getLsbD 53 = jjyLs1 t1 ∧
          f.getLsbD 54 = jjyLs2 t1) ∧
      (isCallsign m = true → msbValue f 50 6 = jjySt t1) := by
  obtain ⟨-, -, hmo1, hmo, -, hday, hh, hm⟩ := hlegal
  have hdoy := dayOfYear_le ⟨hmo1, hmo⟩ hday
  have hminute : bcd5 m < 2 ^ 8 := by rw [bcd5_eq]; omega
  have hhour : bcd5 h < 2 ^ 7 := by rw [bcd5_eq]; omega
  have hdayOfYear : bcd5 (dayOfYear y mo d) < 2 ^ 12 := by rw [bcd5_eq]; omega
  have hyear : bcd (y % 100) < 2 ^ 8 := by rw [bcd_eq]; omega
  have hweekday : dowSun0 y mo d < 2 ^ 3 := (dowSun0_lt y mo d).trans (by decide)
  have hst : jjySt t1 < 2 ^ 6 := Nat.mod_lt _ (by decide)
  simp only [encodeJjy, putParity, putBit]
  cases isCallsign m <;>
    simp (disch := omega) only [getLsbD_putLSB_of_outside, msbValue_putLSB_of_disjoint, getLsbD_putLSB_toNat,
      msbValue_putMSB_same, msbValue_putMSB_of_disjoint, Bool.false_eq_true, Bool.true_eq_false, reduceIte,
      false_implies, and_self, imp_self]

/-! BPC. -/

/-- Subframe k of a frame holds the time inputs as 45_bpc.md R290 to R293 lay them, its two parities counted on the frame
itself. -/
def SubframeHolds (y mo d h m : Nat) (f : Frame) (k : Nat) : Prop :=
  symField f (20 * k) 1 = k ∧ symField f (20 * k + 3) 2 = h % 12 ∧ symField f (20 * k + 5) 3 = m ∧
    symField f (20 * k + 8) 2 = dowIso y mo d ∧
    symField f (20 * k + 10) 1 =
      2 * (if 12 ≤ h then 1 else 0) + (evenParityBit f.toNat (40 * k + 2) (40 * k + 20)).toNat ∧
    symField f (20 * k + 11) 3 = d ∧ symField f (20 * k + 14) 2 = mo ∧ symField f (20 * k + 16) 3 = y % 100 % 64 ∧
    symField f (20 * k + 19) 1 = 2 * (y % 100 / 64) + (evenParityBit f.toNat (40 * k + 22) (40 * k + 38)).toNat

theorem SubframeHolds.congr {y mo d h m k : Nat} {f g : Frame} (hg : SubframeHolds y mo d h m g k)
    (hagree : ∀ i, 40 * k ≤ i → i < 40 * k + 40 → f.getLsbD i = g.getLsbD i) : SubframeHolds y mo d h m f k := by
  have hsym : ∀ s n, 20 * k ≤ s → s + n ≤ 20 * k + 20 → symField f s n = symField g s n := fun s n _ _ =>
    symField_congr fun i _ _ => hagree i (by omega) (by omega)
  have hparity : ∀ lo hi, 40 * k ≤ lo → hi ≤ 40 * k + 40 →
      evenParityBit f.toNat lo hi = evenParityBit g.toNat lo hi := fun lo hi _ _ =>
    evenParityBit_congr fun i _ _ => hagree i (by omega) (by omega)
  unfold SubframeHolds
  simp (disch := omega) only [hsym, hparity]
  exact hg

theorem putSubframe_holds {y mo d h m k : Nat} (hlegal : DateLegal y mo d h m) (hk : k < 3) (f : Frame) :
    SubframeHolds y mo d h m (putSubframe y mo d h m f k) k := by
  obtain ⟨-, -, -, hmo, -, hday, hh, hm⟩ := hlegal
  have hd := hday.trans (daysInMonth_le y mo)
  have hweekday := dowIso_lt y mo d
  have hpm : (if 12 ≤ h then 1 else 0) < 2 := by split <;> decide
  unfold SubframeHolds
  simp only [putSubframe, ← Nat.mul_assoc, Nat.reduceMul, Nat.add_zero]
  refine ⟨?_, ?_, ?_, ?_, ?_, ?_, ?_, ?_, ?_⟩ <;>
    simp (disch := omega) only [symField_putSym_of_disjoint, evenParityBit_putSym_of_disjoint,
      frameParity_eq_evenParityBit, symField_putSym_same, symField_putSym_pair]

theorem getLsbD_putSubframe_of_outside (y mo d h m : Nat) (f : Frame) {k i : Nat} (hi : i < 40 * k ∨ 40 * k + 40 ≤ i) :
    (putSubframe y mo d h m f k).getLsbD i = f.getLsbD i := by
  simp (disch := omega) only [putSubframe, getLsbD_putSym_of_outside]

/-- Each subframe is laid by its own turn of the loop and left by the later ones. -/
theorem encodeBpc_subframeHolds {y mo d h m : Nat} (t1 : Word) (hlegal : DateLegal y mo d h m) {k : Nat} (hk : k < 3) :
    SubframeHolds y mo d h m (encodeBpc y mo d h m t1) k := by
  simp only [encodeBpc, List.foldl_cons, List.foldl_nil]
  interval_cases k
  · refine (putSubframe_holds hlegal (by decide) 0).congr fun i _ _ => ?_
    simp (disch := omega) only [getLsbD_putSubframe_of_outside]
  · refine (putSubframe_holds hlegal (by decide) (putSubframe y mo d h m 0 0)).congr fun i _ _ => ?_
    simp (disch := omega) only [getLsbD_putSubframe_of_outside]
  · exact putSubframe_holds hlegal (by decide) _

end Sys2Proof.Proofs
end

section
/-! PROOFS. Reading an encoded record (41_records_common.md R184, R185): each standard's fields decode to the time inputs,
and the two commands run one after the other: O33 and O38. -/

namespace Sys2Proof.Proofs

open Sys2Proof.Machine

theorem unbcd_bcdOf {v : Nat} (h : v ≤ 99) : unbcd (bcdOf v) = .ok v := by
  rw [← bcd_eq_bcdOf h, unbcd_bcd (by omega)]

/-- A single digit is its own packed form (WWVB's DUT1, 43_wwvb.md R236). -/
theorem unbcd_digit {v : Nat} (h : v ≤ 9) : unbcd v = .ok v := by
  conv_lhs => rw [show v = bcd v by rw [bcd_eq]; omega]
  exact unbcd_bcd (by omega)

/-- What a read of a field gives, from the value the claims' table `encodedField` has for it. -/
def decoded (v : Option Nat) : Except ErrCode Nat := v.elim (.error .unsupported) .ok

@[simp] theorem decoded_some (v : Nat) : decoded (some v) = .ok v := rfl

@[simp] theorem decoded_none : decoded none = .error .unsupported := rfl

/-! The four standards, field by field. -/

theorem fieldDcf77_encodeDcf77 {y mo d h m : Nat} (t1 : Word) (hlegal : DateLegal y mo d h m) (fld : Field) :
    fieldDcf77 (encodeDcf77 y mo d h m t1) fld = decoded (encodedField .dcf77 y mo d h m t1 fld) := by
  obtain ⟨-, hflags, -, hminute, -, hhour, -, hday, hweekday, hmonth, hyear, -⟩ := encodeDcf77_layout t1 hlegal
  have hR : (encodeDcf77 y mo d h m t1).getLsbD 15 = t1.getLsbD 0 := hflags 0 (by decide)
  have hA1 : (encodeDcf77 y mo d h m t1).getLsbD 16 = t1.getLsbD 1 := hflags 1 (by decide)
  have hZ1 : (encodeDcf77 y mo d h m t1).getLsbD 17 = t1.getLsbD 2 := hflags 2 (by decide)
  have hZ2 : (encodeDcf77 y mo d h m t1).getLsbD 18 = t1.getLsbD 3 := hflags 3 (by decide)
  have hA2 : (encodeDcf77 y mo d h m t1).getLsbD 19 = t1.getLsbD 4 := hflags 4 (by decide)
  obtain ⟨-, -, -, hmo, -, hdays, hh, hm⟩ := hlegal
  have hd := hdays.trans (daysInMonth_le y mo)
  cases fld <;>
    simp (disch := omega) only [fieldDcf77, encodedField, decoded_some, decoded_none, getLSB_eq_lsbValue, hminute, hhour,
      hday, hweekday, hmonth, hyear, hR, hA1, hZ1, hZ2, hA2, unbcd_bcdOf]

theorem fieldWwvb_encodeWwvb {y mo d h m : Nat} {t1 : Word} (hlegal : DateLegal y mo d h m) (hdut1 : wwvbDut1 t1 ≤ 9)
    (fld : Field) : fieldWwvb (encodeWwvb y mo d h m t1) fld = decoded (encodedField .wwvb y mo d h m t1 fld) := by
  obtain ⟨hminute, hhour, hdoy, hsign, hmagnitude, hyear, hleap, hls, hdst⟩ := encodeWwvb_fields t1 hlegal
  obtain ⟨-, -, hmo1, hmo, -, hd, hh, hm⟩ := hlegal
  have hdays := dayOfYear_le ⟨hmo1, hmo⟩ hd
  cases fld <;>
    simp (disch := omega) only [fieldWwvb, encodedField, decoded_some, decoded_none, getMSB_eq_msbValue, hminute, hhour,
      hdoy, hsign, hmagnitude, hyear, hleap, hls, hdst, unbcd5_bcd5, unbcd_digit] <;> rfl

theorem ordinaryOnly_of_frameCallsign {f : Frame} {cs : Bool} (h : frameCallsign f = .ok cs) (v : Except ErrCode Nat) :
    ordinaryOnly f v = if cs then .error .unsupported else v := by
  rw [ordinaryOnly, h]
  cases cs <;> rfl

theorem callsignOnly_of_frameCallsign {f : Frame} {cs : Bool} (h : frameCallsign f = .ok cs) (v : Except ErrCode Nat) :
    callsignOnly f v = if cs then v else .error .unsupported := by
  rw [callsignOnly, h]
  cases cs <;> rfl

theorem frameCallsign_encodeJjy {y mo d h m : Nat} (t1 : Word) (hlegal : DateLegal y mo d h m) :
    frameCallsign (encodeJjy y mo d h m t1) = .ok (isCallsign m) := by
  obtain ⟨hminute, -⟩ := encodeJjy_fields t1 hlegal
  obtain ⟨-, -, -, -, -, -, -, hm⟩ := hlegal
  rw [frameCallsign, getMSB_eq_msbValue, hminute, unbcd5_bcd5 (by omega)]
  rfl

/-- By the kind of minute: the fields of the other kind are UNSUPPORTED (44_jjy.md R265). -/
theorem fieldJjy_encodeJjy {y mo d h m : Nat} (t1 : Word) (hlegal : DateLegal y mo d h m) (fld : Field) :
    fieldJjy (encodeJjy y mo d h m t1) fld = decoded (encodedField .jjy y mo d h m t1 fld) := by
  have hkind := frameCallsign_encodeJjy t1 hlegal
  obtain ⟨hminute, hhour, hdoy, hordinary, hcallsign⟩ := encodeJjy_fields t1 hlegal
  obtain ⟨-, -, hmo1, hmo, -, hd, hh, hm⟩ := hlegal
  have hdays := dayOfYear_le ⟨hmo1, hmo⟩ hd
  by_cases hcs : m = 15 ∨ m = 45
  · have htrue := (isCallsign_iff m).mpr hcs
    have hst := hcallsign htrue
    rw [htrue] at hkind
    cases fld <;>
      simp (disch := omega) only [fieldJjy, encodedField, decoded_some, decoded_none, getMSB_eq_msbValue, hkind,
        ordinaryOnly_of_frameCallsign hkind, callsignOnly_of_frameCallsign hkind, hcs, reduceIte, hminute, hhour, hdoy,
        hst, unbcd5_bcd5] <;> rfl
  · have hfalse := Bool.eq_false_of_not_eq_true (mt (isCallsign_iff m).mp hcs)
    obtain ⟨hyear, hweekday, hls1, hls2⟩ := hordinary hfalse
    rw [hfalse] at hkind
    cases fld <;>
      simp (disch := omega) only [fieldJjy, encodedField, decoded_some, decoded_none, getMSB_eq_msbValue, hkind,
        ordinaryOnly_of_frameCallsign hkind, callsignOnly_of_frameCallsign hkind, hcs, reduceIte, Bool.false_eq_true,
        hminute, hhour, hdoy, hyear, hweekday, msbValue_two, hls1, hls2, Nat.reduceAdd, unbcd5_bcd5, unbcd_bcd] <;> rfl

/-- Subframe 0 holds every field; the hour and the year are put together again from their two parts (45_bpc.md R297). -/
theorem fieldBpc_encodeBpc {y mo d h m : Nat} (t1 : Word) (hlegal : DateLegal y mo d h m) (fld : Field) :
    fieldBpc (encodeBpc y mo d h m t1) fld = decoded (encodedField .bpc y mo d h m t1 fld) := by
  obtain ⟨-, hhour, hminute, hweekday, hpm, hday, hmonth, hyear, htop⟩ :=
    encodeBpc_subframeHolds t1 hlegal (k := 0) (by decide)
  have hpmBit : ((encodeBpc y mo d h m t1).getLsbD 21).toNat = if 12 ≤ h then 1 else 0 := by
    rw [← symValue_div_two _ 10, ← symField_one, hpm, two_mul_add_toNat_div_two]
  have hyearBit : ((encodeBpc y mo d h m t1).getLsbD 39).toNat = y % 100 / 64 := by
    rw [← symValue_div_two _ 19, ← symField_one, htop, two_mul_add_toNat_div_two]
  have hwhole : h % 12 + 12 * (if 12 ≤ h then 1 else 0) = h := by split <;> omega
  cases fld <;>
    simp only [fieldBpc, encodedField, decoded_some, decoded_none, getSym_eq_symField, hhour, hminute, hweekday, hday,
      hmonth, hyear, hpmBit, hyearBit, hwhole, Nat.mod_add_div]

theorem fieldRecord_encodeRecord {std : Std} {y mo d h m : Nat} {t1 : Word} (hlegal : DateLegal y mo d h m)
    (hdut1 : std = .wwvb → wwvbDut1 t1 ≤ 9) (fld : Field) :
    fieldRecord std (encodeRecord std y mo d h m t1) fld = decoded (encodedField std y mo d h m t1 fld) := by
  cases std with
  | dcf77 => exact fieldDcf77_encodeDcf77 t1 hlegal fld
  | wwvb => exact fieldWwvb_encodeWwvb hlegal (hdut1 rfl) fld
  | jjy => exact fieldJjy_encodeJjy t1 hlegal fld
  | bpc => exact fieldBpc_encodeBpc t1 hlegal fld

/-! The two commands. -/

theorem exec_recEncode_legal {std : Std} {s : State} (hw : OperandsWritten (recEncodeInstr std) s)
    (hlegal : TimeLegal std s.tin0.value s.tin1.value) :
    exec (recEncodeInstr std) s =
      .next (s.recorded std
        (encodeRecord std (yearBits s.tin0.value) (monthBits s.tin0.value) (dayBits s.tin0.value)
          (hourBits s.tin0.value) (minuteBits s.tin0.value) s.tin1.value)) := by
  rw [exec_recEncode, if_pos hw, if_pos hlegal, encodeTin_eq]

theorem exec_recField_recorded (s : State) (std : Std) (f : Frame) (fld : Field) :
    exec (.recField (fieldCode fld)) (s.recorded std f) = resultEnd (s.recorded std f) (fieldRecord std f fld) := by
  rw [exec_recField, fieldRecord_eq_fieldResult]
  rfl

/-- Settles O33: the layout of R200 on the fields of TIN0. -/
theorem dcf77Layout : Obligations.Dcf77Layout := by
  rintro s _ _ _ _ _ hw hlegal rfl rfl rfl rfl rfl
  exact ⟨_, exec_recEncode_legal (std := .dcf77) hw hlegal, encodeDcf77_layout s.tin1.value hlegal.2.1⟩

/-- Settles O38: the field REC_FIELD reads from the stored record, in the four standards. -/
theorem encodedFieldsDecode : Obligations.EncodedFieldsDecode := by
  intro std fld s hw hlegal
  refine ⟨_, exec_recEncode_legal hw hlegal, ?_⟩
  obtain ⟨-, hdate, -, hdut1⟩ := hlegal
  rw [← fieldAt_eq_extractLsb'] at hdut1
  rw [exec_recField_recorded, fieldRecord_encodeRecord hdate hdut1]
  split
  next v hv => rw [hv]; rfl
  next hnone => rw [hnone]; rfl

end Sys2Proof.Proofs
end

section
/-! PROOFS. The WWVB frame (43_wwvb.md R230): its fields in the claims' own form, the positions no field covers, and O34. -/

namespace Sys2Proof.Proofs

open Sys2Proof.Machine

theorem bcd5_eq_bcd5Of (v : Nat) : bcd5 v = bcd5Of v := bcd5_eq v

/-- No write of R234 touches the positions between the fields, nor those above the last one. -/
theorem getLsbD_encodeWwvb_of_outside_fields (y mo d h m : Nat) (t1 : Word) {i : Nat}
    (hi : i ∈ [0, 9, 10, 11, 19, 20, 21, 34, 35, 39, 44, 54] ∨ 59 ≤ i) :
    (encodeWwvb y mo d h m t1).getLsbD i = false := by
  simp only [List.mem_cons, List.not_mem_nil, or_false] at hi
  simp (disch := omega) only [encodeWwvb, putBit, getLsbD_putMSB_of_outside, getLsbD_putLSB_of_outside,
    BitVec.ofNat_eq_ofNat, BitVec.getLsbD_zero]

/-- Settles O34: the fields hold the time inputs, and every other position is 0. -/
theorem wwvbLayout : Obligations.WwvbLayout := by
  rintro s _ _ _ _ _ hw hlegal rfl rfl rfl rfl rfl
  refine ⟨_, exec_recEncode_legal (std := .wwvb) hw hlegal, ?_⟩
  obtain ⟨-, hdate, -, -⟩ := hlegal
  have hfields := encodeWwvb_fields s.tin1.value hdate
  simp only [bcd5_eq_bcd5Of] at hfields
  obtain ⟨hminute, hhour, hdoy, hsign, hdut1, hyear, hleap, hls, hdst⟩ := hfields
  have houtside {i} := getLsbD_encodeWwvb_of_outside_fields (i := i) (yearBits s.tin0.value) (monthBits s.tin0.value)
    (dayBits s.tin0.value) (hourBits s.tin0.value) (minuteBits s.tin0.value) s.tin1.value
  exact ⟨fun i hi => houtside (.inl hi), hminute, hhour, hdoy, hsign, hdut1, hyear, hleap, hls, hdst,
    fun i hi => houtside (.inr hi)⟩

end Sys2Proof.Proofs
end

section
/-! PROOFS. The calendar counts days (41_records_common.md R174 to R177, R187): what the day after a date is to each
function, the n-th Sunday, the daylight-saving status of each part of the year (43_wwvb.md R232), and O44. -/

namespace Sys2Proof.Proofs

open Sys2Proof.Machine

/-! Leap years and months. -/

theorem isLeap_iff (y : Nat) : isLeap y = true ↔ (y % 4 = 0 ∧ y % 100 ≠ 0) ∨ y % 400 = 0 := by simp [isLeap]

theorem daysInMonth_eq (y : Nat) {m : Nat} (h1 : 1 ≤ m) (h12 : m ≤ 12) :
    daysInMonth y m = if m = 2 then (if isLeap y then 29 else 28) else if m ∈ [4, 6, 9, 11] then 30 else 31 := by
  interval_cases m <;> rfl

/-! Day of the year. -/

theorem dayOfYear_day_succ (y m d : Nat) : dayOfYear y m (d + 1) = dayOfYear y m d + 1 := Nat.add_right_comm ..

theorem dayOfYear_next_month (y : Nat) {m : Nat} (h1 : 1 ≤ m) :
    dayOfYear y (m + 1) 1 = dayOfYear y m (daysInMonth y m) + 1 := by
  obtain ⟨n, rfl⟩ := Nat.exists_eq_add_of_le' h1
  simp only [dayOfYear, Nat.add_sub_cancel, daysOfMonths]
  omega

theorem dayOfYear_last (y : Nat) : dayOfYear y 12 (daysInMonth y 12) = if isLeap y then 366 else 365 := by
  simp only [dayOfYear, daysOfMonths, daysInMonth]
  cases isLeap y <;> rfl

/-! Day of the week. -/

/-- The days by which year y moves the weekday of a date after February: one for each year, one more for each leap year
(R177). -/
def yearShift (y : Nat) : Nat := y + y / 4 - y / 100 + y / 400

theorem yearShift_succ (y : Nat) : yearShift (y + 1) = yearShift y + 1 + (isLeap (y + 1)).toNat := by
  have hcentury : 100 ∣ y + 1 → 4 ∣ y + 1 := Nat.dvd_trans (by decide)
  have hcycle : 400 ∣ y + 1 → 100 ∣ y + 1 := Nat.dvd_trans (by decide)
  have hcenturies : y / 100 ≤ y / 4 := Nat.div_le_div_left (by decide) (by decide)
  have hleap : (isLeap (y + 1)).toNat = if (4 ∣ y + 1 ∧ ¬100 ∣ y + 1) ∨ 400 ∣ y + 1 then 1 else 0 := by
    simp only [Bool.toNat, cond_eq_ite, isLeap_iff, Nat.dvd_iff_mod_eq_zero, ne_eq]
  rw [hleap]
  simp only [yearShift, Nat.succ_div]
  generalize y / 4 = fourths, y / 100 = centuries, y / 400 = cycles at *
  split_ifs <;> omega

theorem dowSun0_jan_feb (y d : Nat) {m : Nat} (hm : m < 3) :
    dowSun0 (y + 1) m d = (yearShift y + dowOffsets.getD (m - 1) 0 + d) % 7 := by
  simp only [dowSun0, yearShift, if_pos hm, Nat.add_sub_cancel]

theorem dowSun0_from_mar (y d : Nat) {m : Nat} (hm : ¬m < 3) :
    dowSun0 y m d = (yearShift y + dowOffsets.getD (m - 1) 0 + d) % 7 := by
  simp only [dowSun0, yearShift, if_neg hm, Nat.sub_zero]

theorem dowSun0_day_add (y m d n : Nat) : dowSun0 y m (d + n) = (dowSun0 y m d + n) % 7 := by
  simp only [dowSun0]
  omega

/-- From any month but February, the offset of R177 moves on by the month's length, modulo the week. -/
theorem dowOffsets_next_month (y : Nat) {m : Nat} (h1 : 1 ≤ m) (hfeb : m ≠ 2) (h12 : m < 12) :
    dowOffsets.getD m 0 = (dowOffsets.getD (m - 1) 0 + daysInMonth y m) % 7 := by
  obtain rfl | hmar : m = 1 ∨ 3 ≤ m := by omega
  · simp [dowOffsets, daysInMonth]
  · interval_cases m <;> simp [dowOffsets, daysInMonth]

/-- From February to March it is the year's own shift that counts the leap day. -/
theorem dowSun0_next_month {y m : Nat} (hy : 1 ≤ y) (h1 : 1 ≤ m) (h12 : m < 12) :
    dowSun0 y (m + 1) 1 = (dowSun0 y m (daysInMonth y m) + 1) % 7 := by
  obtain ⟨x, rfl⟩ := Nat.exists_eq_add_of_le' hy
  rw [← dowSun0_day_add]
  obtain rfl | rfl | hmar : m = 1 ∨ m = 2 ∨ 3 ≤ m := by omega
  · have hoffset := dowOffsets_next_month (x + 1) (m := 1) (by decide) (by decide) (by decide)
    rw [dowSun0_jan_feb _ _ (by decide), dowSun0_jan_feb _ _ (by decide), Nat.add_sub_cancel, hoffset]
    omega
  · have hfeb : daysInMonth (x + 1) 2 = 28 + (isLeap (x + 1)).toNat := by
      rw [daysInMonth]
      cases isLeap (x + 1) <;> rfl
    rw [dowSun0_from_mar _ _ (by decide), dowSun0_jan_feb _ _ (by decide), yearShift_succ, hfeb]
    simp only [dowOffsets, Nat.add_sub_cancel, Nat.reduceSub, List.getD_cons_succ, List.getD_cons_zero]
    omega
  · have hoffset := dowOffsets_next_month (x + 1) h1 (by omega) h12
    rw [dowSun0_from_mar _ _ (by omega), dowSun0_from_mar _ _ (by omega), Nat.add_sub_cancel, hoffset]
    omega

theorem dowSun0_next_year (y : Nat) : dowSun0 (y + 1) 1 1 = (dowSun0 y 12 (daysInMonth y 12) + 1) % 7 := by
  rw [← dowSun0_day_add, dowSun0_jan_feb _ _ (by decide), dowSun0_from_mar _ _ (by decide), daysInMonth]
  simp only [dowOffsets, Nat.reduceSub, List.getD_cons_succ, List.getD_cons_zero]
  omega

/-! Sundays and daylight saving. -/

theorem nthSunday_bounds (y m : Nat) {n : Nat} (hn : 1 ≤ n) :
    7 * (n - 1) < nthSunday y m n ∧ nthSunday y m n ≤ 7 * n := by
  unfold nthSunday
  omega

theorem dowSun0_nthSunday (y m n : Nat) : dowSun0 y m (nthSunday y m n) = 0 := by
  have := dowSun0_lt y m 1
  rw [nthSunday, Nat.add_assoc, dowSun0_day_add]
  omega

theorem dateBefore_iff (m d m' d' : Nat) : dateBefore m d m' d' = true ↔ m < m' ∨ (m = m' ∧ d < d') := by
  simp [dateBefore]

theorem usDst_eq (y m d : Nat) :
    usDst y m d =
      if m = 3 ∧ d = nthSunday y 3 2 then 2
      else if m = 11 ∧ d = nthSunday y 11 1 then 1
      else if (3 < m ∨ (3 = m ∧ nthSunday y 3 2 < d)) ∧ (m < 11 ∨ (m = 11 ∧ d < nthSunday y 11 1)) then 3
      else 0 := by
  simp only [usDst, Bool.and_eq_true, dateBefore_iff]

/-- Settles O44: the day after a date, function by function, and the daylight-saving status in each part of the year. -/
theorem calendarCountsDays : Obligations.CalendarCountsDays := by
  refine ⟨by decide, fun y m d hy h1 h12 _ _ => ?_⟩
  refine ⟨isLeap_iff y, daysInMonth_eq y h1 h12, rfl, dowSun0_lt y m d, rfl,
    fun _ => ⟨dowSun0_day_add y m d 1, dayOfYear_day_succ y m d⟩, ?nextMonth, ?nextYear,
    fun n hn => ⟨dowSun0_nthSunday y m n, nthSunday_bounds y m hn⟩, ?begins, ?ends, ?inEffect, ?notInEffect⟩
  case nextMonth =>
    rintro rfl hm
    exact ⟨dowSun0_next_month hy h1 hm, dayOfYear_next_month y h1⟩
  case nextYear =>
    rintro rfl rfl
    exact ⟨dowSun0_next_year y, dayOfYear_last y⟩
  case begins | ends | inEffect | notInEffect =>
    intro hpart
    rw [usDst_eq]
    split_ifs <;> omega

end Sys2Proof.Proofs
end

section
/-! PROOFS. The JJY frame (44_jjy.md R260, R261): its parity bits over the finished frame, the positions no field covers in
either kind of minute, and O35. -/

namespace Sys2Proof.Proofs

open Sys2Proof.Machine

/-- PA1 and PA2: the writes after them leave the hour and the minute they count. -/
theorem encodeJjy_parities (y mo d h m : Nat) (t1 : Word) :
    let f := encodeJjy y mo d h m t1
    f.getLsbD 36 = evenParityBit f.toNat 12 19 ∧ f.getLsbD 37 = evenParityBit f.toNat 1 9 := by
  simp only [encodeJjy, putParity, putBit, putMSB]
  cases isCallsign m <;>
    simp (disch := omega) only [Bool.false_eq_true, reduceIte, getLsbD_putLSB_of_outside, getLsbD_putLSB_toNat,
      evenParityBit_putLSB_of_disjoint, frameParity_eq_evenParityBit, and_self]

/-- No write of R263 touches the positions unused in every minute, 55 in an ordinary minute, or the Morse span's 41 to 48 in
a call-sign minute. -/
theorem getLsbD_encodeJjy_of_outside_fields {y mo d h m : Nat} {t1 : Word} {i : Nat}
    (hi : (i ∈ [0, 9, 10, 11, 19, 20, 21, 34, 35, 38, 39, 40, 49] ∨ 56 ≤ i) ∨
      (isCallsign m = false ∧ i = 55) ∨ (isCallsign m = true ∧ 41 ≤ i ∧ i ≤ 48)) :
    (encodeJjy y mo d h m t1).getLsbD i = false := by
  simp only [List.mem_cons, List.not_mem_nil, or_false] at hi
  simp only [encodeJjy, putParity, putBit]
  cases hcs : isCallsign m <;>
    simp only [hcs, Bool.false_eq_true, Bool.true_eq_false, false_and, true_and, or_false, false_or] at hi <;>
    simp (disch := omega) only [Bool.false_eq_true, reduceIte, getLsbD_putMSB_of_outside, getLsbD_putLSB_of_outside,
      BitVec.ofNat_eq_ofNat, BitVec.getLsbD_zero]

/-- Settles O35: the fields hold the time inputs, the parities are counted on the frame itself, and every other position of
the minute's kind is 0. -/
theorem jjyLayout : Obligations.JjyLayout := by
  rintro s _ _ _ _ _ hw hlegal rfl rfl rfl rfl rfl
  refine ⟨_, exec_recEncode_legal (std := .jjy) hw hlegal, ?_⟩
  obtain ⟨-, hdate, -, -⟩ := hlegal
  have hfields := encodeJjy_fields s.tin1.value hdate
  simp (disch := omega) only [bcd5_eq_bcd5Of, bcd_eq_bcdOf] at hfields
  obtain ⟨hminute, hhour, hdoy, hordinary, hcallsign⟩ := hfields
  obtain ⟨hpa1, hpa2⟩ := encodeJjy_parities (yearBits s.tin0.value) (monthBits s.tin0.value) (dayBits s.tin0.value)
    (hourBits s.tin0.value) (minuteBits s.tin0.value) s.tin1.value
  refine ⟨fun i hi => getLsbD_encodeJjy_of_outside_fields (.inl (.inl hi)), hminute, hhour, hdoy, hpa1, hpa2,
    fun h15 h45 => ?ordinary, fun hm => ?callsign, fun i hi => getLsbD_encodeJjy_of_outside_fields (.inl (.inr hi))⟩
  case ordinary =>
    have hcs : isCallsign (minuteBits s.tin0.value) = false :=
      Bool.eq_false_of_not_eq_true (mt (isCallsign_iff _).mp (not_or.mpr ⟨h15, h45⟩))
    obtain ⟨hyear, hweekday, hls1, hls2⟩ := hordinary hcs
    exact ⟨hyear, hweekday, hls1, hls2, getLsbD_encodeJjy_of_outside_fields (.inr (.inl ⟨hcs, rfl⟩))⟩
  case callsign =>
    have hcs := (isCallsign_iff _).mpr hm
    exact ⟨fun i h41 h48 => getLsbD_encodeJjy_of_outside_fields (.inr (.inr ⟨hcs, h41, h48⟩)), hcallsign hcs⟩

end Sys2Proof.Proofs
end

section
/-! PROOFS. The BPC frame (45_bpc.md R290 to R293): its reserved slots, the bits above the last symbol, and O36. -/

namespace Sys2Proof.Proofs

open Sys2Proof.Machine

/-- A turn of R294's loop writes only its own subframe, and there not slots 1 and 2. -/
theorem getLsbD_putSubframe_of_outside_fields (y mo d h m : Nat) (f : Frame) {k i : Nat}
    (hi : i < 40 * k ∨ (40 * k + 2 ≤ i ∧ i < 40 * k + 6) ∨ 40 * k + 40 ≤ i) :
    (putSubframe y mo d h m f k).getLsbD i = f.getLsbD i := by
  simp (disch := omega) only [putSubframe, getLsbD_putSym_of_outside]

theorem getLsbD_encodeBpc_of_outside_fields (y mo d h m : Nat) (t1 : Word) {i : Nat}
    (hi : ∀ k < 3, i < 40 * k ∨ (40 * k + 2 ≤ i ∧ i < 40 * k + 6) ∨ 40 * k + 40 ≤ i) :
    (encodeBpc y mo d h m t1).getLsbD i = false := by
  simp only [encodeBpc, List.foldl_cons, List.foldl_nil]
  rw [getLsbD_putSubframe_of_outside_fields _ _ _ _ _ _ (hi 2 (by decide)),
    getLsbD_putSubframe_of_outside_fields _ _ _ _ _ _ (hi 1 (by decide)),
    getLsbD_putSubframe_of_outside_fields _ _ _ _ _ _ (hi 0 (by decide))]
  exact BitVec.getLsbD_zero

/-- Slots 1 and 2 of each subframe (R291). -/
theorem symValue_encodeBpc_of_reserved (y mo d h m : Nat) (t1 : Word) {k s : Nat}
    (hs : s = 20 * k + 1 ∨ s = 20 * k + 2) : symValue (encodeBpc y mo d h m t1) s = 0 := by
  rw [symValue, getLsbD_encodeBpc_of_outside_fields _ _ _ _ _ _ (fun _ _ => by omega),
    getLsbD_encodeBpc_of_outside_fields _ _ _ _ _ _ (fun _ _ => by omega)]
  rfl

/-- Settles O36: each subframe holds the time inputs, and its reserved slots and the bits from 120 up are 0. -/
theorem bpcLayout : Obligations.BpcLayout := by
  rintro s _ _ _ _ _ hw hlegal rfl rfl rfl rfl rfl
  refine ⟨_, exec_recEncode_legal (std := .bpc) hw hlegal, fun k hk => ?_,
    fun i hi => getLsbD_encodeBpc_of_outside_fields _ _ _ _ _ s.tin1.value (fun _ _ => by omega)⟩
  obtain ⟨-, hdate, -, -⟩ := hlegal
  have hsubframe := encodeBpc_subframeHolds s.tin1.value hdate hk
  simp only [SubframeHolds, symField_one] at hsubframe
  obtain ⟨hsync, hfields⟩ := hsubframe
  have hreserved {slot} := symValue_encodeBpc_of_reserved (k := k) (s := slot) (yearBits s.tin0.value)
    (monthBits s.tin0.value) (dayBits s.tin0.value) (hourBits s.tin0.value) (minuteBits s.tin0.value) s.tin1.value
  exact ⟨hsync, hreserved (.inl rfl), hreserved (.inr rfl), hfields⟩

end Sys2Proof.Proofs
end

section
/-! PROOFS. The envelope scheduler (46_envelope.md R320 to R331): the model's slot classes against the claims' slot tables,
the amplitude of a sample, and SCHEDULE and ENVELOPE: O45 and O47. -/

namespace Sys2Proof.Proofs

open Sys2Proof.Machine

/-! The class of a second. -/

/-- cs(F) as `slotClass` takes it: only a JJY frame has a call-sign minute. -/
def frameCs (std : Std) (f : Frame) : Bool := std == .jjy && callsignMinute f

/-- R331: the one failure of cs(F) is the malformed minute of a JJY frame. -/
theorem callsignOf_eq (std : Std) (f : Frame) :
    callsignOf std f = if FrameUndecodable std f then .error .format else .ok (frameCs std f) := by
  cases std with
  | jjy => simp [callsignOf, frameCallsign_eq, FrameUndecodable, frameCs]
  | dcf77 | wwvb | bpc => rfl

/-- The marker seconds of WWVB and JJY (R323, R324). -/
theorem isMarkerSecond_iff {s : Nat} (hs : s ≤ 59) : isMarkerSecond s = true ↔ s ∈ markerSeconds := by
  simp only [isMarkerSecond, markerSeconds, Bool.or_eq_true, beq_iff_eq, List.mem_cons, List.not_mem_nil, or_false]
  omega

/-- BPC's marker seconds (R325). -/
theorem mod_twenty_eq_zero_iff {s : Nat} (hs : s ≤ 59) : s % 20 = 0 ↔ s ∈ [0, 20, 40] := by
  simp only [List.mem_cons, List.not_mem_nil, or_false]
  omega

/-- The slot tables of R322 to R325 give each second the code and the prefix of the model's class. -/
theorem slotTable_eq (p : Params) (std : Std) (f : Frame) {s : Nat} (hs : s ≤ 59) :
    slotTable p std f s =
      (slotCode (slotClass std f (frameCs std f) s), prefixMs p std (slotClass std f (frameCs std f) s)) := by
  cases std with
  | dcf77 =>
    simp only [slotTable, slotClass, dataClass]
    split_ifs <;> rfl
  | wwvb =>
    simp only [slotTable, slotClass, dataClass, isMarkerSecond_iff hs]
    split_ifs <;> rfl
  | jjy =>
    simp only [slotTable, slotClass, dataClass, isMarkerSecond_iff hs, frameCs, isMorseSecond, beq_self_eq_true,
      Bool.true_and, Bool.and_eq_true, decide_eq_true_eq]
    split_ifs <;> rfl
  | bpc =>
    simp only [slotTable, slotClass, mod_twenty_eq_zero_iff hs, symAt_eq_symValue, symValue]
    split_ifs
    · rfl
    · cases f.getLsbD (2 * s + 1) <;> cases f.getLsbD (2 * s) <;> rfl

/-! The amplitude of a sample. -/

theorem slotCode_eq_nine_iff (c : SlotClass) : slotCode c = 9 ↔ c = .morse := by cases c <;> simp [slotCode]

/-- R326's two polarities as one condition: JJY alone is FULL_FIRST. -/
theorem polarityAmplitude_eq (std : Std) (depth : Word) (n k : Nat) :
    polarityAmplitude std depth n k = if k < n ↔ std = .jjy then f64One else f64Sub f64One depth := by
  cases std with
  | jjy => simp only [polarityAmplitude, lowAmplitude, iff_true]
  | dcf77 | wwvb | bpc => simp only [polarityAmplitude, lowAmplitude, reduceCtorEq, iff_false, ite_not]

theorem morseIndex_eq_gateIndex (rule : MorseRule) (rate s k : Nat) :
    morseIndex rule rate s k = gateIndex rule rate s k := by
  cases rule <;> rfl

theorem amplitude_of_ne_morse (p : Params) {std : Std} {f : Frame} {cs : Bool} (rate : Nat) (depth : Word) {s : Nat}
    (k : Nat) (h : slotClass std f cs s ≠ .morse) :
    amplitude p std f cs rate depth s k =
      polarityAmplitude std depth (prefixSamples p std rate (slotClass std f cs s)) k := by
  rw [amplitude]
  split
  · contradiction
  · rfl

/-- A second's amplitude by the model's classes is the claims' by the slot tables. -/
theorem amplitude_eq_envelopeAmplitude (p : Params) (std : Std) (f : Frame) (rate : Nat) (depth : Word) {s : Nat}
    (k : Nat) (hs : s ≤ 59) :
    amplitude p std f (frameCs std f) rate depth s k = envelopeAmplitude p std f rate depth s k := by
  simp only [envelopeAmplitude, slotTable_eq p std f hs, slotCode_eq_nine_iff]
  by_cases hmorse : slotClass std f (frameCs std f) s = .morse
  · rw [if_pos hmorse, amplitude, hmorse, morseAmplitude, morseIndex_eq_gateIndex]
  · rw [if_neg hmorse, amplitude_of_ne_morse _ _ _ _ hmorse, polarityAmplitude_eq, prefixSamples]

/-! One equation for each command. -/

theorem rateLegal_iff (r : Nat) : rateLegal r = true ↔ 1 ≤ r ∧ r < 2 ^ 32 := by
  rw [rateLegal, Bool.and_eq_true, decide_eq_true_eq, decide_eq_true_eq, Nat.le_sub_one_iff_lt (by decide)]

/-- A command's end after cs(F), which may raise FORMAT. -/
@[simp] theorem commandEnd_map_callsignOf (s : State) (std : Std) (f : Frame) (g : Bool → State) :
    commandEnd s (g <$> callsignOf std f) =
      if FrameUndecodable std f then .next (s.failed .format) else .next (g (frameCs std f)).endOk := by
  rw [callsignOf_eq]
  split <;> rfl

theorem exec_schedule (s : State) :
    exec .schedule s =
      if OperandsWritten .schedule s then
        if s.frameTag.present then
          if rateLegal s.rate.value.toNat then
            if s.opa.value.toNat ≤ 59 then
              if FrameUndecodable s.frameTag.std s.frame then .next (s.failed .format)
              else
                let c := slotClass s.frameTag.std s.frame (frameCs s.frameTag.std s.frame) s.opa.value.toNat
                .next (s.succeeded (toWord (prefixSamples s.params s.frameTag.std s.rate.value.toNat c))
                  (toWord (slotCode c)))
            else .next (s.failed .range)
          else .next (s.failed .config)
        else .next (s.failed .noframe)
      else .next (s.failed .uninit) := by
  simp [exec, execSchedule, OperandsWritten, operandsRead, ite_and]

theorem exec_envelope (s : State) :
    exec .envelope s =
      if OperandsWritten .envelope s then
        if s.frameTag.present then
          if rateLegal s.rate.value.toNat ∧ inUnitInterval s.depth.value then
            if s.opa.value.toNat ≤ 59 ∧ s.opb.value.toNat < s.rate.value.toNat then
              if FrameUndecodable s.frameTag.std s.frame then .next (s.failed .format)
              else
                .next (s.succeeded
                  (amplitude s.params s.frameTag.std s.frame (frameCs s.frameTag.std s.frame) s.rate.value.toNat
                    s.depth.value s.opa.value.toNat s.opb.value.toNat) 0)
            else .next (s.failed .range)
          else .next (s.failed .config)
        else .next (s.failed .noframe)
      else .next (s.failed .uninit) := by
  simp [exec, execEnvelope, OperandsWritten, operandsRead, ite_and]

/-- Settles O45: SCHEDULE's five checks in their order, and the slot tables' prefix and class. -/
theorem scheduleResult : Obligations.ScheduleResult := by
  intro s
  refine ⟨fun hw => by rw [exec_schedule, if_neg hw], fun hw hp => ?_, fun hw hp => ?_⟩
  · rw [exec_schedule, if_pos hw, if_neg (by simp [hp])]
  rw [exec_schedule, if_pos hw, if_pos hp]
  simp only [rateLegal_iff]
  refine ⟨fun hrate => if_neg (by omega), fun hpos hlt => ?_⟩
  rw [if_pos ⟨hpos, hlt⟩]
  refine ⟨fun hsec => if_neg (not_le.mpr hsec), fun hsec hbad => ?_, fun hsec hgood => ?_⟩
  · rw [if_pos hsec, if_pos hbad]
  · rw [if_pos hsec, if_neg hgood, slotTable_eq _ _ _ hsec]
    rfl

/-- Settles O47: ENVELOPE's six checks in their order, and the amplitude by the slot tables. -/
theorem envelopeResult : Obligations.EnvelopeResult := by
  intro s
  refine ⟨fun hw => by rw [exec_envelope, if_neg hw], fun hw hp => ?_, fun hw hp => ?_⟩
  · rw [exec_envelope, if_pos hw, if_neg (by simp [hp])]
  rw [exec_envelope, if_pos hw, if_pos hp]
  simp only [rateLegal_iff]
  refine ⟨fun hconfig => if_neg ?_, fun hpos hlt hdepth => ?_⟩
  · rintro ⟨hrate, hdepth⟩
    simp only [hdepth, Bool.true_eq_false, or_false] at hconfig
    omega
  rw [if_pos ⟨⟨hpos, hlt⟩, hdepth⟩]
  refine ⟨fun hrange => if_neg (by omega), fun hsec hk => ?_⟩
  rw [if_pos ⟨hsec, hk⟩]
  refine ⟨fun hbad => if_pos hbad, fun hgood => ?_⟩
  rw [if_neg hgood, amplitude_eq_envelopeAmplitude _ _ _ _ _ _ hsec]

end Sys2Proof.Proofs
end

section
/-! PROOFS. SAMPLE (47_synth.md R350 to R357): the command's equation and its checks in their order, and `round` as a
floor: O48 and O52. -/

namespace Sys2Proof.Proofs

open Sys2Proof.Machine

theorem freqLegal_iff (f : Nat) : freqLegal f = true ↔ f < 2 ^ 32 := by
  rw [freqLegal, decide_eq_true_eq, Nat.le_sub_one_iff_lt (by decide)]

theorem shapeLegal_iff (sh : Nat) : shapeLegal sh = true ↔ sh ≤ 2 := decide_eq_true_iff

theorem exec_sample (s : State) :
    exec .sample s =
      if OperandsWritten .sample s then
        if (1 ≤ s.rate.value.toNat ∧ s.rate.value.toNat < 2 ^ 32) ∧ s.freq.value.toNat < 2 ^ 32 ∧
            s.shape.value.toNat ≤ 2 then
          if s.opa.value.toNat < 2 ^ 53 ∧ inUnitInterval s.opb.value then
            .next (s.succeeded
              (BitVec.ofInt 64
                (shapeSample s.params s.shape.value.toNat s.opa.value.toNat s.freq.value.toNat s.opb.value
                  s.rate.value.toNat)) 0)
          else .next (s.failed .range)
        else .next (s.failed .config)
      else .next (s.failed .uninit) := by
  simp [exec, execSample, OperandsWritten, operandsRead, ite_and, rateLegal_iff, freqLegal_iff, shapeLegal_iff]

/-- The model's calculators are the formulas of R350 and R353 to R355. -/
theorem shapeSample_eq_sampleValue (p : Params) (shape n f : Nat) (a : Word) (r : Nat) :
    shapeSample p shape n f a r = sampleValue p shape n f a r := by
  match shape with
  | 0 => rfl
  | 1 => rfl
  | _ + 2 => rfl

/-- SAMPLE on a legal configuration, a legal index and a legal amplitude. -/
theorem exec_sample_legal {s : State} (hw : OperandsWritten .sample s) (hpos : 1 ≤ s.rate.value.toNat)
    (hrate : s.rate.value.toNat < 2 ^ 32) (hfreq : s.freq.value.toNat < 2 ^ 32) (hshape : s.shape.value.toNat ≤ 2)
    (hn : s.opa.value.toNat < 2 ^ 53) (ha : inUnitInterval s.opb.value = true) :
    exec .sample s =
      .next (s.succeeded
        (BitVec.ofInt 64
          (shapeSample s.params s.shape.value.toNat s.opa.value.toNat s.freq.value.toNat s.opb.value
            s.rate.value.toNat)) 0) := by
  rw [exec_sample, if_pos hw, if_pos ⟨⟨hpos, hrate⟩, hfreq, hshape⟩, if_pos ⟨hn, ha⟩]

/-- Settles O48: SAMPLE's checks in their order, and the shape's formula. -/
theorem sampleResult : Obligations.SampleResult := by
  intro s
  refine ⟨fun hw => by rw [exec_sample, if_neg hw], fun hw => ⟨fun hconfig => ?_, ?_⟩⟩
  · rw [exec_sample, if_pos hw, if_neg (by omega)]
  intro hpos hrate hfreq hshape
  constructor
  · intro hrange
    rw [exec_sample, if_pos hw, if_pos ⟨⟨hpos, hrate⟩, hfreq, hshape⟩, if_neg]
    rintro ⟨hn, ha⟩
    exact hrange.elim (not_le.mpr hn) (by simp [ha])
  · intro hn ha
    rw [exec_sample_legal hw hpos hrate hfreq hshape hn ha, shapeSample_eq_sampleValue]

/-- R351: at the exponent `min e 0`, both y and 1 are integers, and the model's quotient is the floor. -/
theorem f64RoundToInt_eq {y : Word} (hy : f64Finite y = true) : f64RoundToInt y = ⌊f64Rat y + 1 / 2⌋ := by
  obtain ⟨m, e, hunpack, hval⟩ := f64Unpack_of_finite hy
  simp only [f64RoundToInt, hunpack]
  rw [← f64SignedAt_scaled (min_le_left e 0)] at hval
  generalize f64SignedAt (min e 0) (y.getLsbD 63) m e = v at *
  have hone : (2 : ℚ) ^ min e 0 = 1 / 2 ^ (-e).toNat := by
    rw [two_zpow_eq_div, show (min e 0).toNat = 0 by omega, show (-min e 0).toNat = (-e).toNat by omega, pow_zero]
  generalize (-e).toNat = k at *
  have hquot : f64Rat y + 1 / 2 = ((2 * v + (2 ^ k : ℕ) : ℤ) : ℚ) / ((2 * 2 ^ k : ℕ) : ℚ) := by
    rw [hval, hone]
    push_cast
    field_simp
  rw [hquot, Rat.floor_intCast_div_natCast]
  push_cast
  rfl

/-- Settles O52, by `f64RoundToInt_eq`: the model's integer quotient is the floor. -/
theorem roundIsFloorOfHalfAbove : Obligations.RoundIsFloorOfHalfAbove := fun _ => f64RoundToInt_eq

end Sys2Proof.Proofs
end

section
/-! PROOFS. Bounds that one rounding keeps (00_scope.md R13), and with them the magnitudes of SIN64 and ASIN64
(47_synth.md R352), whatever the parameters choose. -/

namespace Sys2Proof.Proofs

open Sys2Proof.Machine

/-! Rounding and bounds. -/

theorem f64Rat_of_unpack {x : Word} {neg : Bool} {m : Nat} {e : Int} (h : f64Unpack x = .fin neg m e) :
    f64Rat x = f64Sign neg * (m * 2 ^ e) := by
  rw [f64Rat, h, ← mul_assoc]; rfl

theorem abs_f64Rat {x : Word} (h : f64Finite x = true) : |f64Rat x| = f64Units (f64Mag x) / 2 ^ 1074 := by
  rw [f64Rat_of_finite h, abs_mul, abs_f64Sign, one_mul, abs_of_nonneg (by positivity)]

theorem abs_f64Rat_le_iff {x y : Word} (hx : f64Finite x = true) (hy : f64Finite y = true) :
    |f64Rat x| ≤ |f64Rat y| ↔ f64Mag x ≤ f64Mag y := by
  rw [abs_f64Rat hx, abs_f64Rat hy, div_le_div_iff_of_pos_right (by positivity), Nat.cast_le,
    f64Units_strictMono.le_iff_le]

/-- A pattern of no greater magnitude than a finite one is finite, and no greater in absolute value. -/
theorem bounded_of_f64Mag_le {x y : Word} (hy : f64Finite y = true) (h : f64Mag x ≤ f64Mag y) :
    f64Finite x = true ∧ |f64Rat x| ≤ |f64Rat y| := by
  have hx : f64Finite x = true := (f64Finite_iff x).mpr (h.trans_lt ((f64Finite_iff y).mp hy))
  exact ⟨hx, (abs_f64Rat_le_iff hx hy).mpr h⟩

/-- A value of at most `mag`'s many units is rounded to at most `mag`. -/
theorem IsRounding.le_of_value_le {V r : ℚ} {E q q' mag : Nat} (h : IsRounding V E q r q') (hV : V ≤ f64Units mag) :
    E * 2 ^ 52 + q' ≤ mag := by
  have hlow : (f64Units (E * 2 ^ 52 + q) : ℚ) = V - r * 2 ^ E := by rw [h.f64Units_ends.1, h.value]; ring
  have hpos : (0 : ℚ) < 2 ^ E := by positivity
  rcases h.nearest.1 with ⟨rfl, -⟩ | ⟨rfl, hhalf⟩
  · have : (f64Units (E * 2 ^ 52 + q') : ℚ) ≤ f64Units mag := by
      rw [hlow]; linarith [mul_nonneg h.rest_nonneg hpos.le]
    exact f64Units_strictMono.le_iff_le.mp (by exact_mod_cast this)
  · have : (f64Units (E * 2 ^ 52 + q) : ℚ) < f64Units mag := by
      rw [hlow]; linarith [mul_pos (show 0 < r by linarith) hpos]
    exact f64Units_strictMono.lt_iff_lt.mp (by exact_mod_cast this)

/-- A value of at most a finite pattern's magnitude is rounded to a finite pattern of at most that magnitude. -/
theorem RoundsOnce.bounded {neg : Bool} {v : ℚ} {y z : Word} (h : RoundsOnce neg v y) (hz : f64Finite z = true)
    (hv : |v| ≤ |f64Rat z|) : f64Finite y = true ∧ |f64Rat y| ≤ |f64Rat z| := by
  obtain ⟨num, den, hd, rfl, rfl⟩ := h
  obtain ⟨E, q, r, q', hround, heq⟩ := f64Round_isRounding neg num hd
  refine bounded_of_f64Mag_le hz ?_
  rw [heq, f64Mag_f64Signed ((min_le_left _ _).trans_lt (by decide))]
  refine (min_le_right _ _).trans (hround.le_of_value_le ?_)
  rwa [abs_mul, abs_f64Sign, one_mul, abs_of_nonneg (by positivity), abs_f64Rat hz, le_div_iff₀ (by positivity)] at hv

/-- A product is within the product of its factors' bounds, where that is a finite value. -/
theorem f64Mul_bounded {a b z : Word} {A B : ℚ} (ha : f64Finite a = true) (hb : f64Finite b = true)
    (hz : f64Finite z = true) (hA : |f64Rat a| ≤ A) (hB : |f64Rat b| ≤ B) (hAB : A * B ≤ |f64Rat z|) :
    f64Finite (f64Mul a b) = true ∧ |f64Rat (f64Mul a b)| ≤ |f64Rat z| := by
  refine (roundsOnce_f64Mul ha hb).bounded hz (le_trans ?_ hAB)
  rw [abs_mul]
  exact mul_le_mul hA hB (abs_nonneg _) ((abs_nonneg _).trans hA)

/-- Rounding to nearest does not cross a finite value. -/
theorem NearestEven.le {v : ℚ} {y z : Word} (h : NearestEven v y) (hz : f64Finite z = true) (hv : v ≤ f64Rat z) :
    f64Rat y ≤ f64Rat z := by
  have hnear := (h.2 z hz).1
  rw [abs_of_nonneg (sub_nonneg.mpr hv)] at hnear
  linarith [le_abs_self (f64Rat y - v)]

theorem RoundsOnce.eq_zero {neg : Bool} {y : Word} (h : RoundsOnce neg 0 y) : y = f64Signed neg 0 := by
  obtain ⟨num, den, hd, hv, rfl⟩ := h
  have hnum : num = 0 := by simpa [f64Sign_ne_zero, hd] using hv.symm
  rw [hnum, f64Round_zero]

theorem f64RoundToInt_le {y : Word} {hi : Int} (hy : f64Finite y = true) (h : f64Rat y + 1 / 2 < hi + 1) :
    f64RoundToInt y ≤ hi := by
  rw [f64RoundToInt_eq hy, ← Int.lt_add_one_iff, Int.floor_lt]
  exact_mod_cast h

theorem le_f64RoundToInt {y : Word} {lo : Int} (hy : f64Finite y = true) (h : lo ≤ f64Rat y + 1 / 2) :
    lo ≤ f64RoundToInt y := by
  rw [f64RoundToInt_eq hy]
  exact Int.le_floor.mpr h

/-! The magnitudes of SIN64 and ASIN64 (R352). -/

theorem f64Mag_chooseWithinOneUlp_le (c : List (Word × Word)) {cap : Nat} (hcap : cap < 2 ^ 63) (x : Word)
    (v : Enclosure) : f64Mag (chooseWithinOneUlp c cap x v) ≤ cap := by
  have hround : f64Mag (roundEnclosure cap v) ≤ cap := by
    rw [roundEnclosure, f64Mag_f64Signed ((min_le_left _ _).trans_lt hcap)]
    exact min_le_left _ _
  rw [chooseWithinOneUlp]
  split
  · split
    next y _ hy =>
      simp only [withinOneUlp] at hy
      split at hy
      · simp only [Bool.and_eq_true, decide_eq_true_eq] at hy
        exact hy.1.1.2
      · cases hy
      · cases hy
    next => exact hround
  · exact hround

theorem sin64_zero (c : List (Word × Word)) : sin64 c f64Zero = f64Zero := by
  simp only [sin64, show f64Unpack f64Zero = .fin false 0 (-1074) by decide, if_true]

theorem asin64_zero (c : List (Word × Word)) : asin64 c f64Zero = f64Zero := by
  simp only [asin64, show f64Unpack f64Zero = .fin false 0 (-1074) by decide, if_true]

theorem sin64_bounded (c : List (Word × Word)) {x : Word} (hx : f64Finite x = true) :
    f64Finite (sin64 c x) = true ∧ |f64Rat (sin64 c x)| ≤ 1 := by
  obtain ⟨m, e, hunpack, -⟩ := f64Unpack_of_finite hx
  simp only [sin64, hunpack]
  split
  next hm =>
    rw [(f64Unpack_mantissa_eq_zero hunpack).mp hm]
    exact ⟨hx, by norm_num⟩
  next =>
    have h := bounded_of_f64Mag_le (y := f64One) (by decide)
      (f64Mag_chooseWithinOneUlp_le c (f64Mag_lt _) x (sinEnclosure (x.getLsbD 63) m e))
    rwa [f64Rat_one, abs_one] at h

theorem asin64_bounded (c : List (Word × Word)) {y : Word} (hy : f64Finite y = true) (hle : |f64Rat y| ≤ 1) :
    f64Finite (asin64 c y) = true ∧ |f64Rat (asin64 c y)| ≤ |f64Rat f64HalfPi| := by
  obtain ⟨m, e, hunpack, -⟩ := f64Unpack_of_finite hy
  have hmag : f64Mag y ≤ f64Mag f64One := by
    rwa [← abs_f64Rat_le_iff hy (by decide), f64Rat_one, abs_one]
  simp only [asin64, hunpack, if_neg (not_lt.mpr hmag)]
  split
  next hm =>
    rw [(f64Unpack_mantissa_eq_zero hunpack).mp hm]
    exact ⟨hy, by norm_num⟩
  next =>
    refine bounded_of_f64Mag_le (by decide) ?_
    split
    · rw [f64Mag_f64Signed (f64Mag_lt _)]
    · exact f64Mag_chooseWithinOneUlp_le c (f64Mag_lt _) y _

end Sys2Proof.Proofs
end

section
/-! PROOFS. SAMPLE at FREQ = 0 and the range of every sample, as 47_synth.md R357 and R356 derive them: O49 and O50. -/

namespace Sys2Proof.Proofs

open Sys2Proof.Machine

/-! The constants. -/

theorem f64Rat_fullScale : f64Rat f64FullScale = 32767 := by
  rw [f64Rat_of_unpack (m := 9006924376834048) (e := -38) (neg := false) (by decide)]
  norm_num [f64Sign]

theorem f64Rat_squareLow : f64Rat f64SquareLow = -32768 := by
  rw [f64Rat_of_unpack (m := 2 ^ 52) (e := -37) (neg := true) (by decide)]
  norm_num [f64Sign]

theorem f64Rat_pi : f64Rat f64Pi = 884279719003555 / 2 ^ 48 := by
  rw [f64Rat_of_unpack (m := 7074237752028440) (e := -51) (neg := false) (by decide)]
  norm_num [f64Sign]

theorem f64Rat_halfPi : f64Rat f64HalfPi = 884279719003555 / 2 ^ 49 := by
  rw [f64Rat_of_unpack (m := 7074237752028440) (e := -52) (neg := false) (by decide)]
  norm_num [f64Sign]

/-- 2^87, above every phase argument. -/
theorem f64Rat_phaseBound : f64Rat 0x4560000000000000 = 2 ^ 87 := by
  rw [f64Rat_of_unpack (m := 2 ^ 52) (e := 35) (neg := false) (by decide)]
  norm_num [f64Sign]

/-- 1 + 2^-20, above (2.0 / PI64) * (PI64 / 2), which is a little more than 1 before it is rounded (R356). -/
theorem f64Rat_unitBound : f64Rat 0x3FF0000100000000 = 1 + 1 / 2 ^ 20 := by
  rw [f64Rat_of_unpack (m := 2 ^ 52 + 2 ^ 32) (e := -52) (neg := false) (by decide)]
  norm_num [f64Sign]

/-- 32767.25, which R356's sine and triangle do not exceed before the last rounding. -/
theorem f64Rat_scaleBound : f64Rat 0x40DFFFD000000000 = 32767 + 1 / 4 := by
  rw [f64Rat_of_unpack (m := 9006993096310784) (e := -38) (neg := false) (by decide)]
  norm_num [f64Sign]

/-! The phase argument (R350). -/

theorem quotient_bounded {n r : Nat} (hn : n < 2 ^ 53) (hr : 1 ≤ r) (hr32 : r < 2 ^ 32) :
    f64Finite (f64Div (f64OfNat n) (f64OfNat r)) = true ∧ |f64Rat (f64Div (f64OfNat n) (f64OfNat r))| ≤ n ∧
      (f64Div (f64OfNat n) (f64OfNat r)).getLsbD 63 = false := by
  obtain ⟨hnfin, hnval⟩ := f64OfNat_exact hn
  obtain ⟨hrfin, hrval⟩ := f64OfNat_exact (v := r) (by omega)
  have hr0 : f64Rat (f64OfNat r) ≠ 0 := by rw [hrval]; positivity
  have hdiv := roundsOnce_f64Div hnfin hrfin hr0
  have hle : |f64Rat (f64OfNat n) / f64Rat (f64OfNat r)| ≤ |f64Rat (f64OfNat n)| := by
    rw [abs_div]
    refine div_le_self (abs_nonneg _) ?_
    rw [hrval, Nat.abs_cast]
    exact_mod_cast hr
  obtain ⟨hfin, hbound⟩ := hdiv.bounded hnfin hle
  refine ⟨hfin, by rwa [hnval, Nat.abs_cast] at hbound, ?_⟩
  rw [hdiv.sign, (roundsOnce_f64OfNat n).sign, (roundsOnce_f64OfNat r).sign]
  rfl

theorem f64Finite_phase {n f r : Nat} (hn : n < 2 ^ 53) (hf : f < 2 ^ 32) (hr : 1 ≤ r) (hr32 : r < 2 ^ 32) :
    f64Finite (phase n f r) = true := by
  obtain ⟨htfin, htle, -⟩ := quotient_bounded hn hr hr32
  obtain ⟨hffin, hfval⟩ := f64OfNat_exact (v := f) (by omega)
  obtain ⟨hbfin, hbval⟩ := f64OfNat_exact (v := 2 ^ 34) (by decide)
  have hscaled := f64Mul_bounded (a := f64Pi) (A := 4) (B := 2 ^ 32) (by decide) hffin hbfin
    (by rw [f64Rat_pi]; norm_num) (by rw [hfval, Nat.abs_cast]; exact_mod_cast hf.le) (by rw [hbval]; norm_num)
  refine (f64Mul_bounded (B := 2 ^ 53) hscaled.1 htfin (z := 0x4560000000000000) (by decide) hscaled.2
    (htle.trans (by exact_mod_cast hn.le)) ?_).1
  rw [hbval, f64Rat_phaseBound]
  norm_num

theorem phase_zero {n r : Nat} (hn : n < 2 ^ 53) (hr : 1 ≤ r) (hr32 : r < 2 ^ 32) : phase n 0 r = f64Zero := by
  obtain ⟨hfin, -, hsign⟩ := quotient_bounded hn hr hr32
  have hmul := roundsOnce_f64Mul (a := f64Zero) (by decide) hfin
  rw [f64Rat_zero, zero_mul, hsign] at hmul
  rw [phase, show f64Mul f64Pi (f64OfNat 0) = f64Zero by decide]
  exact hmul.eq_zero

/-! SAMPLE at FREQ = 0 (R357). -/

theorem f64RoundToInt_zero_mul {a : Word} (ha : f64Finite a = true) : f64RoundToInt (f64Mul f64Zero a) = 0 := by
  have hmul := roundsOnce_f64Mul (a := f64Zero) (by decide) ha
  rw [f64Rat_zero, zero_mul] at hmul
  have hfin : f64Finite (f64Mul f64Zero a) = true := by rw [hmul.eq_zero]; exact f64Finite_f64Signed (by decide) _
  rw [f64RoundToInt_eq hfin, ((f64_eq_zero_iff hfin _).mp hmul.eq_zero).2]
  norm_num

theorem sineSample_zero_freq (p : Params) {n r : Nat} {a : Word} (hn : n < 2 ^ 53) (hr : 1 ≤ r) (hr32 : r < 2 ^ 32)
    (ha : f64Finite a = true) : sineSample p n 0 a r = 0 := by
  rw [sineSample, phase_zero hn hr hr32, sin64_zero, show f64Mul f64Zero f64FullScale = f64Zero by decide,
    f64RoundToInt_zero_mul ha]

theorem squareSample_zero_freq (p : Params) {n r : Nat} (a : Word) (hn : n < 2 ^ 53) (hr : 1 ≤ r) (hr32 : r < 2 ^ 32) :
    squareSample p n 0 a r = f64RoundToInt (f64Mul f64FullScale a) := by
  rw [squareSample, phase_zero hn hr hr32, sin64_zero, if_pos (by decide)]

theorem triangleSample_zero_freq (p : Params) {n r : Nat} {a : Word} (hn : n < 2 ^ 53) (hr : 1 ≤ r) (hr32 : r < 2 ^ 32)
    (ha : f64Finite a = true) : triangleSample p n 0 a r = 0 := by
  rw [triangleSample, phase_zero hn hr hr32, sin64_zero, asin64_zero,
    show f64Mul (f64Mul (f64Div f64Two f64Pi) f64Zero) f64FullScale = f64Zero by decide, f64RoundToInt_zero_mul ha]

theorem shapeSample_zero_freq (p : Params) (shape : Nat) {n r : Nat} {a : Word} (hn : n < 2 ^ 53) (hr : 1 ≤ r)
    (hr32 : r < 2 ^ 32) (ha : f64Finite a = true) :
    shapeSample p shape n 0 a r = if shape = 1 then f64RoundToInt (f64Mul f64FullScale a) else 0 := by
  rw [shapeSample, sineSample_zero_freq p hn hr hr32 ha, squareSample_zero_freq p a hn hr hr32,
    triangleSample_zero_freq p hn hr hr32 ha]
  match shape with
  | 0 => rfl
  | 1 => rfl
  | _ + 2 => rfl

/-- Settles O49: the phase argument is +0.0, where R352 fixes both functions. -/
theorem sampleAtZeroFrequency : Obligations.SampleAtZeroFrequency := by
  intro s hw hfreq hpos hrate hshape hn ha
  have hfreq0 : s.freq.value.toNat = 0 := by rw [hfreq]; rfl
  have hone : s.shape.value.toNat = 1 ↔ s.shape.value = 1 := ⟨fun h => BitVec.eq_of_toNat_eq h, fun h => by rw [h]; rfl⟩
  rw [exec_sample_legal hw hpos hrate (by omega) hshape hn ha, hfreq0,
    shapeSample_zero_freq _ _ hn hpos hrate ((inUnitInterval_iff _).mp ha).1]
  simp only [hone]
  split <;> rfl

/-! The range of a sample (R356). -/

/-- A waveform value of magnitude at most 1 + 2^-20, scaled by 32767.0 and by an amplitude, rounds to at most 32767. -/
theorem scaledSample_range {y a : Word} (hy : f64Finite y = true) (hle : |f64Rat y| ≤ 1 + 1 / 2 ^ 20)
    (ha : inUnitInterval a = true) :
    -32767 ≤ f64RoundToInt (f64Mul (f64Mul y f64FullScale) a) ∧
      f64RoundToInt (f64Mul (f64Mul y f64FullScale) a) ≤ 32767 := by
  obtain ⟨hafin, ha0, ha1⟩ := (inUnitInterval_iff a).mp ha
  have hscaled := f64Mul_bounded (z := 0x40DFFFD000000000) hy (show f64Finite f64FullScale = true by decide) (by decide)
    hle (abs_of_nonneg (by rw [f64Rat_fullScale]; norm_num)).le
    (by rw [f64Rat_scaleBound, f64Rat_fullScale]; norm_num)
  obtain ⟨hfin, hbound⟩ := f64Mul_bounded (z := 0x40DFFFD000000000) hscaled.1 hafin (by decide) hscaled.2
    (by rwa [abs_of_nonneg ha0]) (mul_one _).le
  rw [f64Rat_scaleBound, abs_of_pos (by norm_num : (0 : ℚ) < 32767 + 1 / 4), abs_le] at hbound
  exact ⟨le_f64RoundToInt hfin (by push_cast; linarith [hbound.1]),
    f64RoundToInt_le hfin (by push_cast; linarith [hbound.2])⟩

/-- The square wave's negative level, scaled by an amplitude, rounds to -32768 to 0. -/
theorem squareLow_range {a : Word} (ha : inUnitInterval a = true) :
    -32768 ≤ f64RoundToInt (f64Mul f64SquareLow a) ∧ f64RoundToInt (f64Mul f64SquareLow a) ≤ 32767 := by
  obtain ⟨hafin, ha0, ha1⟩ := (inUnitInterval_iff a).mp ha
  have hlow : f64Finite f64SquareLow = true := by decide
  obtain ⟨hfin, hbound⟩ := f64Mul_bounded hlow hafin hlow le_rfl (by rwa [abs_of_nonneg ha0]) (mul_one _).le
  have hneg : f64Rat (f64Mul f64SquareLow a) ≤ f64Rat f64Zero := by
    refine NearestEven.le ((roundsOnce_f64Mul hlow hafin).nearestEven hfin) (by decide) ?_
    rw [f64Rat_squareLow, f64Rat_zero]
    linarith
  rw [f64Rat_squareLow, abs_neg, abs_of_pos (by norm_num : (0 : ℚ) < 32768), abs_le] at hbound
  rw [f64Rat_zero] at hneg
  exact ⟨le_f64RoundToInt hfin (by push_cast; linarith [hbound.1]), f64RoundToInt_le hfin (by push_cast; linarith)⟩

theorem squareSample_range (p : Params) (n f : Nat) {a : Word} (r : Nat) (ha : inUnitInterval a = true) :
    -32768 ≤ squareSample p n f a r ∧ squareSample p n f a r ≤ 32767 := by
  rw [squareSample]
  split
  · have h := scaledSample_range (y := f64One) (by decide) (by rw [f64Rat_one]; norm_num) ha
    rw [show f64Mul f64One f64FullScale = f64FullScale by decide] at h
    exact ⟨le_trans (by decide) h.1, h.2⟩
  · exact squareLow_range ha

theorem triangleFactor_bounded {y : Word} (hy : f64Finite y = true) (hle : |f64Rat y| ≤ |f64Rat f64HalfPi|) :
    f64Finite (f64Mul (f64Div f64Two f64Pi) y) = true ∧
      |f64Rat (f64Mul (f64Div f64Two f64Pi) y)| ≤ |f64Rat 0x3FF0000100000000| := by
  have hfactor : f64Rat 0x3FE45F306DC9C883 = 5734161139222659 / 2 ^ 53 := by
    rw [f64Rat_of_unpack (m := 5734161139222659) (e := -53) (neg := false) (by decide)]
    norm_num [f64Sign]
  rw [show f64Div f64Two f64Pi = 0x3FE45F306DC9C883 by decide]
  refine f64Mul_bounded (by decide) hy (by decide) le_rfl hle ?_
  rw [hfactor, f64Rat_halfPi, f64Rat_unitBound]
  norm_num

theorem shapeSample_range (p : Params) (shape : Nat) {n f r : Nat} {a : Word} (hx : f64Finite (phase n f r) = true)
    (ha : inUnitInterval a = true) :
    -32768 ≤ shapeSample p shape n f a r ∧ shapeSample p shape n f a r ≤ 32767 ∧
      (shape ≠ 1 → -32767 ≤ shapeSample p shape n f a r) := by
  obtain ⟨hsfin, hsle⟩ := sin64_bounded p.sinChoice hx
  rw [shapeSample]
  split_ifs with hsine hsquare
  · have h := scaledSample_range hsfin (hsle.trans (by norm_num)) ha
    exact ⟨le_trans (by decide) h.1, h.2, fun _ => h.1⟩
  · have h := squareSample_range p n f r ha
    exact ⟨h.1, h.2, fun hne => absurd hsquare hne⟩
  · obtain ⟨hafin, hale⟩ := asin64_bounded p.asinChoice hsfin hsle
    obtain ⟨htfin, htle⟩ := triangleFactor_bounded hafin hale
    rw [f64Rat_unitBound, abs_of_pos (by norm_num : (0 : ℚ) < 1 + 1 / 2 ^ 20)] at htle
    have h := scaledSample_range htfin htle ha
    exact ⟨le_trans (by decide) h.1, h.2, fun _ => h.1⟩

theorem toInt_ofInt_of_range {v : Int} (hlo : -32768 ≤ v) (hhi : v ≤ 32767) : (BitVec.ofInt 64 v).toInt = v := by
  rw [BitVec.toInt_ofInt]
  exact Int.bmod_eq_of_le (by omega) (by omega)

/-- What a SAMPLE without an error found and wrote. -/
theorem sample_of_no_error {s t : State} (hexec : exec .sample s = .next t) (hok : t.status.err = false) :
    f64Finite (phase s.opa.value.toNat s.freq.value.toNat s.rate.value.toNat) = true ∧
      inUnitInterval s.opb.value = true ∧
      t.res0.value = BitVec.ofInt 64
        (shapeSample s.params s.shape.value.toNat s.opa.value.toNat s.freq.value.toNat s.opb.value
          s.rate.value.toNat) := by
  rw [exec_sample] at hexec
  split_ifs at hexec with hw hconfig hrange <;> obtain rfl := Host.Outcome.next.inj hexec
  · obtain ⟨⟨hpos, hrate⟩, hfreq, -⟩ := hconfig
    exact ⟨f64Finite_phase hrange.1 hfreq hpos hrate, hrange.2, rfl⟩
  all_goals cases hok

/-- Settles O50: before `round`, each shape's value is within 32767.25 of 0, or is the square wave's negative level, scaled
to between -32768 and 0. -/
theorem sampleRange : Obligations.SampleRange := by
  intro s t hexec hok
  obtain ⟨hx, ha, hres⟩ := sample_of_no_error hexec hok
  obtain ⟨hlo, hhi, hsym⟩ := shapeSample_range s.params s.shape.value.toNat hx ha
  rw [hres, toInt_ofInt_of_range hlo hhi]
  exact ⟨hlo, hhi, fun hne => hsym fun h => hne (BitVec.eq_of_toNat_eq h)⟩

end Sys2Proof.Proofs
end

section
/-! PROOFS. The two power series of the enclosures (notes/assumptions/13): the real nested sums they follow are the
truncated series of the sine and of the arctangent, and the fixed-point sums stay within a few units of those. -/

namespace Sys2Proof.Proofs

open Sys2Proof.Machine

/-! Fixed point: a natural number n stands for n / 2^k. -/

theorem natDiv_le_real (a b : Nat) : ((a / b : ℕ) : ℝ) ≤ a / b := Nat.cast_div_le

theorem real_lt_natDiv_add_one (a : Nat) {b : Nat} (hb : 0 < b) : (a / b : ℝ) < (a / b : ℕ) + 1 := by
  rw [div_lt_iff₀ (by exact_mod_cast hb)]
  exact_mod_cast Nat.lt_mul_of_div_lt (Nat.lt_succ_self (a / b)) hb

theorem abs_natDiv_sub_le (a : Nat) {b : Nat} (hb : 0 < b) : |((a / b : ℕ) : ℝ) - a / b| ≤ 1 := by
  rw [abs_le]
  constructor <;> linarith [natDiv_le_real a b, real_lt_natDiv_add_one a hb]

/-- The real a fixed-point number stands for. -/
noncomputable def fixedVal (k n : Nat) : ℝ := n / 2 ^ k

theorem fixedVal_nonneg (k n : Nat) : 0 ≤ fixedVal k n := by unfold fixedVal; positivity

theorem fixedVal_mul_pow (k n : Nat) : fixedVal k n * 2 ^ k = n := div_mul_cancel₀ _ (by positivity)

theorem abs_sub_mul_pow (a b : ℝ) (k : Nat) : |a - b| * 2 ^ k = |a * 2 ^ k - b * 2 ^ k| := by
  rw [← sub_mul, abs_mul, abs_of_pos (by positivity : (0 : ℝ) < 2 ^ k)]

/-- The rounded square of a fixed-point number: at most the exact one, and less than a unit below it. -/
theorem fixedVal_sq_bounds (k r : Nat) :
    fixedVal k (r * r / 2 ^ k) ≤ fixedVal k r ^ 2 ∧ fixedVal k r ^ 2 * 2 ^ k - 1 ≤ (r * r / 2 ^ k : ℕ) := by
  have hpos : (0 : ℝ) < 2 ^ k := by positivity
  have hexact : fixedVal k r ^ 2 * 2 ^ k = ((r * r : ℕ) : ℝ) / (2 ^ k : ℕ) := by
    rw [fixedVal]; push_cast; field_simp
  constructor
  · refine le_of_mul_le_mul_right ?_ hpos
    rw [fixedVal_mul_pow, hexact]
    exact natDiv_le_real _ _
  · rw [hexact]
    linarith [real_lt_natDiv_add_one (r * r) (b := 2 ^ k) (by positivity)]

/-- One product of the nested sums: the rounded quotient n n' / (2^k c), for n' a value S within err units and n the
value q less at most a unit. -/
theorem abs_nestedProduct_sub_le {k n n' c : Nat} {q S err : ℝ} (hc : 0 < c) (hle : fixedVal k n ≤ q)
    (hge : q * 2 ^ k - 1 ≤ n) (hS0 : 0 ≤ S) (hS1 : S ≤ 1) (herr : |(n' : ℝ) - S * 2 ^ k| ≤ err) :
    |((n * n' / (2 ^ k * c) : ℕ) : ℝ) - q * S / c * 2 ^ k| ≤ 1 + (q * err + 1) / c := by
  have hpos : (0 : ℝ) < 2 ^ k := by positivity
  have hcpos : (0 : ℝ) < c := by exact_mod_cast hc
  have hfloor := abs_natDiv_sub_le (n * n') (b := 2 ^ k * c) (by positivity)
  have hn : (n : ℝ) = fixedVal k n * 2 ^ k := (fixedVal_mul_pow k n).symm
  have hsplit : ((n * n' : ℕ) : ℝ) / ((2 ^ k * c : ℕ) : ℝ) - q * S / c * 2 ^ k =
      (fixedVal k n * (n' - S * 2 ^ k) + S * (n - q * 2 ^ k)) / c := by
    push_cast
    rw [hn]
    field_simp
    ring
  have hexact : |((n * n' : ℕ) : ℝ) / ((2 ^ k * c : ℕ) : ℝ) - q * S / c * 2 ^ k| ≤ (q * err + 1) / c := by
    rw [hsplit, abs_div, abs_of_pos hcpos]
    gcongr
    refine (abs_add_le _ _).trans (add_le_add ?_ ?_)
    · rw [abs_mul, abs_of_nonneg (fixedVal_nonneg k n)]
      exact mul_le_mul hle herr (abs_nonneg _) ((fixedVal_nonneg k n).trans hle)
    · have hunit : |(n : ℝ) - q * 2 ^ k| ≤ 1 := by
        have := mul_le_mul_of_nonneg_right hle hpos.le
        rw [fixedVal_mul_pow] at this
        rw [abs_le]
        constructor <;> linarith
      rw [abs_mul, abs_of_nonneg hS0]
      exact mul_le_one₀ hS1 (abs_nonneg _) hunit
  exact (abs_sub_le _ _ _).trans (add_le_add hfloor hexact)

/-- The remainder of an alternating series is at most its first omitted term. -/
theorem abs_sub_alternating_sum_le {f : ℕ → ℝ} {l : ℝ} (hf : Antitone f) (hsum : HasSum (fun i => (-1) ^ i * f i) l)
    (n : Nat) : |l - ∑ i ∈ Finset.range n, (-1) ^ i * f i| ≤ f n := by
  have hf' : Summable f := by simpa [← mul_assoc, ← mul_pow] using hsum.summable.alternating
  simpa only [hsum.tsum_eq] using alternating_series_error_bound f hf hf' n

/-! The sine's series. -/

/-- The nested sum `sinSeries` computes, exactly. -/
noncomputable def sinTail (q : ℝ) : Nat → Nat → ℝ
  | 0, _ => 1
  | terms + 1, j => 1 - q * sinTail q terms (j + 1) / (2 * j * (2 * j + 1) : ℕ)

theorem six_le_sin_divisor {j : Nat} (hj : 1 ≤ j) : 6 ≤ 2 * j * (2 * j + 1) := by nlinarith

theorem sinTail_mem {q : ℝ} (hq0 : 0 ≤ q) (hq : q ≤ 5 / 2) (terms : Nat) {j : Nat} (hj : 1 ≤ j) :
    0 ≤ sinTail q terms j ∧ sinTail q terms j ≤ 1 := by
  induction terms generalizing j with
  | zero => exact ⟨zero_le_one, le_rfl⟩
  | succ terms ih =>
    obtain ⟨h0, h1⟩ := ih (j := j + 1) (by omega)
    have hc : (6 : ℝ) ≤ (2 * j * (2 * j + 1) : ℕ) := by exact_mod_cast six_le_sin_divisor hj
    have hle : q * sinTail q terms (j + 1) / (2 * j * (2 * j + 1) : ℕ) ≤ 1 :=
      div_le_one_of_le₀ (by nlinarith) (by linarith)
    have hge : 0 ≤ q * sinTail q terms (j + 1) / (2 * j * (2 * j + 1) : ℕ) := by positivity
    rw [sinTail]
    constructor <;> linarith

theorem sinSeries_le (k r2 terms j : Nat) : sinSeries k r2 terms j ≤ 2 ^ k := by
  cases terms with
  | zero => exact le_rfl
  | succ terms => exact Nat.sub_le _ _

/-- Each step of the fixed-point sum keeps it within 2 units of the exact one. -/
theorem abs_sinSeries_sub_le {k n : Nat} {q : ℝ} (hle : fixedVal k n ≤ q) (hge : q * 2 ^ k - 1 ≤ n)
    (hq : q ≤ 5 / 2) (terms : Nat) {j : Nat} (hj : 1 ≤ j) :
    |(sinSeries k n terms j : ℝ) - sinTail q terms j * 2 ^ k| ≤ 2 := by
  have hq0 : 0 ≤ q := (fixedVal_nonneg k n).trans hle
  induction terms generalizing j with
  | zero => simp [sinSeries, sinTail]
  | succ terms ih =>
    obtain ⟨hS0, hS1⟩ := sinTail_mem hq0 hq terms (j := j + 1) (by omega)
    have hc6 := six_le_sin_divisor hj
    have hc : (6 : ℝ) ≤ (2 * j * (2 * j + 1) : ℕ) := by exact_mod_cast hc6
    have hnear := abs_nestedProduct_sub_le (c := 2 * j * (2 * j + 1)) (by omega) hle hge hS0 hS1 (ih (by omega))
    have herr : (q * 2 + 1) / ((2 * j * (2 * j + 1) : ℕ) : ℝ) ≤ 1 := div_le_one_of_le₀ (by linarith) (by linarith)
    have hsub : n * sinSeries k n terms (j + 1) / (2 ^ k * (2 * j * (2 * j + 1))) ≤ 2 ^ k := by
      refine Nat.div_le_of_le_mul ?_
      have hn : n ≤ 2 * j * (2 * j + 1) * 2 ^ k := by
        have : (n : ℝ) ≤ (2 * j * (2 * j + 1) : ℕ) * 2 ^ k := by
          rw [← fixedVal_mul_pow k n]
          gcongr
          linarith
        exact_mod_cast this
      calc n * sinSeries k n terms (j + 1)
          ≤ (2 * j * (2 * j + 1) * 2 ^ k) * 2 ^ k := Nat.mul_le_mul hn (sinSeries_le _ _ _ _)
        _ = 2 ^ k * (2 * j * (2 * j + 1)) * 2 ^ k := by ring
    rw [sinSeries, sinTail, Nat.cast_sub hsub]
    push_cast at hnear ⊢
    rw [show ∀ a b c : ℝ, a - b - (1 - c) * a = -(b - c * a) by intros; ring, abs_neg]
    push_cast at herr
    linarith

theorem sinTail_eq_sum (z : ℝ) (terms j : Nat) :
    z ^ (2 * j + 1) / (2 * j + 1).factorial * sinTail (z ^ 2) terms (j + 1) =
      ∑ i ∈ Finset.range (terms + 1), (-1) ^ i * (z ^ (2 * (j + i) + 1) / (2 * (j + i) + 1).factorial) := by
  induction terms generalizing j with
  | zero => simp [sinTail]
  | succ terms ih =>
    have hfact : ((2 * (j + 1) + 1).factorial : ℝ) =
        ((2 * (j + 1) * (2 * (j + 1) + 1) : ℕ) : ℝ) * (2 * j + 1).factorial := by
      rw [show 2 * (j + 1) + 1 = (2 * j + 1) + 1 + 1 by ring, Nat.factorial_succ, Nat.factorial_succ]
      push_cast
      ring
    have hstep : z ^ (2 * j + 1) / (2 * j + 1).factorial *
          (z ^ 2 * sinTail (z ^ 2) terms (j + 1 + 1) / ((2 * (j + 1) * (2 * (j + 1) + 1) : ℕ) : ℝ)) =
        z ^ (2 * (j + 1) + 1) / (2 * (j + 1) + 1).factorial * sinTail (z ^ 2) terms (j + 1 + 1) := by
      rw [hfact, show 2 * (j + 1) + 1 = (2 * j + 1) + 2 by ring, pow_add]
      field_simp
      ring
    rw [Finset.sum_range_succ', sinTail, mul_sub, hstep, ih (j + 1), mul_one, sub_eq_add_neg, add_comm,
      ← Finset.sum_neg_distrib]
    refine congrArg₂ _ (Finset.sum_congr rfl fun i _ => ?_) (by simp)
    rw [show j + 1 + i = j + (i + 1) by ring, pow_succ (-1 : ℝ)]
    ring

theorem sin_terms_antitone {z : ℝ} (hz0 : 0 ≤ z) (hz : z ^ 2 ≤ 5 / 2) :
    Antitone fun i : ℕ => z ^ (2 * i + 1) / (2 * i + 1).factorial := by
  refine antitone_nat_of_succ_le fun i => ?_
  have hfact : ((2 * (i + 1) + 1).factorial : ℝ) = ((2 * i + 3) * (2 * i + 2)) * (2 * i + 1).factorial := by
    rw [show 2 * (i + 1) + 1 = (2 * i + 1) + 1 + 1 by ring, Nat.factorial_succ, Nat.factorial_succ]
    push_cast
    ring
  rw [hfact, show 2 * (i + 1) + 1 = (2 * i + 1) + 2 by ring, pow_add, mul_comm, mul_div_mul_comm]
  refine mul_le_of_le_one_left (by positivity) (div_le_one_of_le₀ ?_ (by positivity))
  nlinarith [(Nat.cast_nonneg i : (0 : ℝ) ≤ i)]

theorem abs_sin_sub_sinTail_le {z : ℝ} (hz0 : 0 ≤ z) (hz : z ^ 2 ≤ 5 / 2) (terms : Nat) :
    |Real.sin z - z * sinTail (z ^ 2) terms 1| ≤ z ^ (2 * (terms + 1) + 1) / (2 * (terms + 1) + 1).factorial := by
  have hsum := Real.hasSum_sin z
  simp only [mul_div_assoc] at hsum
  have hpartial := sinTail_eq_sum z terms 0
  simp only [zero_add, mul_zero, pow_one, Nat.factorial_one, Nat.cast_one, div_one] at hpartial
  rw [hpartial]
  exact abs_sub_alternating_sum_le (sin_terms_antitone hz0 hz) hsum (terms + 1)

/-! The arctangent's series. -/

/-- The nested sum `atanSeries` computes, exactly. -/
noncomputable def atanTail (q : ℝ) : Nat → Nat → ℝ
  | 0, j => 1 / (2 * j + 1 : ℕ)
  | terms + 1, j => 1 / (2 * j + 1 : ℕ) - q * atanTail q terms (j + 1)

theorem atanTail_mem {q : ℝ} (hq0 : 0 ≤ q) (hq : q ≤ 1) (terms j : Nat) :
    0 ≤ atanTail q terms j ∧ atanTail q terms j ≤ 1 / (2 * j + 1 : ℕ) := by
  induction terms generalizing j with
  | zero => exact ⟨by rw [atanTail]; positivity, le_rfl⟩
  | succ terms ih =>
    obtain ⟨h0, h1⟩ := ih (j + 1)
    have hnext : (1 : ℝ) / (2 * (j + 1) + 1 : ℕ) ≤ 1 / (2 * j + 1 : ℕ) := by gcongr; omega
    have hprod : q * atanTail q terms (j + 1) ≤ atanTail q terms (j + 1) := mul_le_of_le_one_left h0 hq
    have hprod0 : 0 ≤ q * atanTail q terms (j + 1) := mul_nonneg hq0 h0
    rw [atanTail]
    constructor <;> linarith

theorem atanSeries_le (k t2 terms j : Nat) : atanSeries k t2 terms j ≤ 2 ^ k / (2 * j + 1) := by
  cases terms with
  | zero => exact le_rfl
  | succ terms => exact Nat.sub_le _ _

/-- Each step of the fixed-point sum keeps it within 4 units of the exact one. -/
theorem abs_atanSeries_sub_le {k n : Nat} {q : ℝ} (hle : fixedVal k n ≤ q) (hge : q * 2 ^ k - 1 ≤ n)
    (hq : q ≤ 1 / 4) (terms j : Nat) :
    |(atanSeries k n terms j : ℝ) - atanTail q terms j * 2 ^ k| ≤ 4 := by
  have hq0 : 0 ≤ q := (fixedVal_nonneg k n).trans hle
  have hlead (j : Nat) : |((2 ^ k / (2 * j + 1) : ℕ) : ℝ) - 1 / (2 * j + 1 : ℕ) * 2 ^ k| ≤ 1 := by
    have h := abs_natDiv_sub_le (2 ^ k) (b := 2 * j + 1) (by omega)
    push_cast at h ⊢
    rwa [one_div_mul_eq_div]
  induction terms generalizing j with
  | zero => exact (hlead j).trans (by norm_num)
  | succ terms ih =>
    obtain ⟨hS0, hS1⟩ := atanTail_mem hq0 (hq.trans (by norm_num)) terms (j + 1)
    have hS1' : atanTail q terms (j + 1) ≤ 1 := hS1.trans (div_le_one_of_le₀ (by norm_cast; omega) (by positivity))
    have hnear := abs_nestedProduct_sub_le (c := 1) one_pos hle hge hS0 hS1' (ih (j + 1))
    have hn : n ≤ 2 ^ k := by
      have : (n : ℝ) ≤ 1 * 2 ^ k := by
        rw [← fixedVal_mul_pow k n]
        gcongr
        linarith
      rw [one_mul] at this
      exact_mod_cast this
    have hsub : n * atanSeries k n terms (j + 1) / 2 ^ k ≤ 2 ^ k / (2 * j + 1) :=
      calc n * atanSeries k n terms (j + 1) / 2 ^ k
          ≤ 2 ^ k * atanSeries k n terms (j + 1) / 2 ^ k := by gcongr
        _ = atanSeries k n terms (j + 1) := Nat.mul_div_cancel_left _ (by positivity)
        _ ≤ 2 ^ k / (2 * (j + 1) + 1) := atanSeries_le _ _ _ _
        _ ≤ 2 ^ k / (2 * j + 1) := Nat.div_le_div_left (by omega) (by omega)
    rw [mul_one, Nat.cast_one, div_one, div_one] at hnear
    rw [atanSeries, atanTail, Nat.cast_sub hsub]
    calc |((2 ^ k / (2 * j + 1) : ℕ) : ℝ) - (n * atanSeries k n terms (j + 1) / 2 ^ k : ℕ) -
            (1 / (2 * j + 1 : ℕ) - q * atanTail q terms (j + 1)) * 2 ^ k|
        = |(((2 ^ k / (2 * j + 1) : ℕ) : ℝ) - 1 / (2 * j + 1 : ℕ) * 2 ^ k) -
            ((n * atanSeries k n terms (j + 1) / 2 ^ k : ℕ) - q * atanTail q terms (j + 1) * 2 ^ k)| := by
          congr 1; ring
      _ ≤ 1 + (1 + (q * 4 + 1)) := (abs_sub _ _).trans (add_le_add (hlead j) hnear)
      _ ≤ 4 := by linarith

theorem atanTail_eq_sum (z : ℝ) (terms j : Nat) :
    z ^ (2 * j + 1) * atanTail (z ^ 2) terms j =
      ∑ i ∈ Finset.range (terms + 1), (-1) ^ i * (z ^ (2 * (j + i) + 1) / (2 * (j + i) + 1 : ℕ)) := by
  induction terms generalizing j with
  | zero => simp [atanTail, div_eq_mul_inv]
  | succ terms ih =>
    have hstep : z ^ (2 * j + 1) * (z ^ 2 * atanTail (z ^ 2) terms (j + 1)) =
        z ^ (2 * (j + 1) + 1) * atanTail (z ^ 2) terms (j + 1) := by ring
    rw [Finset.sum_range_succ', atanTail, mul_sub, hstep, ih (j + 1), sub_eq_add_neg, add_comm,
      ← Finset.sum_neg_distrib]
    refine congrArg₂ _ (Finset.sum_congr rfl fun i _ => ?_) (by simp [div_eq_mul_inv])
    rw [show j + 1 + i = j + (i + 1) by ring, pow_succ (-1 : ℝ)]
    ring

theorem atan_terms_antitone {z : ℝ} (hz0 : 0 ≤ z) (hz : z ≤ 1) :
    Antitone fun i : ℕ => z ^ (2 * i + 1) / (2 * i + 1 : ℕ) := by
  refine antitone_nat_of_succ_le fun i => ?_
  have hpow : z ^ (2 * (i + 1) + 1) ≤ z ^ (2 * i + 1) := pow_le_pow_of_le_one hz0 hz (by omega)
  gcongr
  omega

theorem abs_arctan_sub_atanTail_le {z : ℝ} (hz0 : 0 ≤ z) (hz : z < 1) (terms : Nat) :
    |Real.arctan z - z * atanTail (z ^ 2) terms 0| ≤ z ^ (2 * (terms + 1) + 1) / (2 * (terms + 1) + 1 : ℕ) := by
  have hsum := Real.hasSum_arctan (x := z) (by rwa [Real.norm_of_nonneg hz0])
  simp only [mul_div_assoc] at hsum
  have hpartial := atanTail_eq_sum z terms 0
  simp only [zero_add, mul_zero, pow_one] at hpartial
  rw [hpartial]
  exact abs_sub_alternating_sum_le (atan_terms_antitone hz0 hz.le) hsum (terms + 1)

/-! The two functions in fixed point. -/

/-- The last product of either series: the argument times the nested sum. -/
theorem abs_fixedProduct_sub_le {k r n : Nat} {S err : ℝ} (herr : |(n : ℝ) - S * 2 ^ k| ≤ err) :
    |((r * n / 2 ^ k : ℕ) : ℝ) - fixedVal k r * S * 2 ^ k| ≤ 1 + fixedVal k r * err := by
  have hfloor := abs_natDiv_sub_le (r * n) (b := 2 ^ k) (by positivity)
  have hexact : ((r * n : ℕ) : ℝ) / (2 ^ k : ℕ) - fixedVal k r * S * 2 ^ k = fixedVal k r * (n - S * 2 ^ k) := by
    rw [fixedVal]
    push_cast
    field_simp
  refine (abs_sub_le _ _ _).trans (add_le_add hfloor ?_)
  rw [hexact, abs_mul, abs_of_nonneg (fixedVal_nonneg k r)]
  exact mul_le_mul_of_nonneg_left herr (fixedVal_nonneg k r)

/-- r * sinSeries / 2^k, the model's sine of r / 2^k. -/
def sinFixed (k r : Nat) : Nat := r * sinSeries k (r * r / 2 ^ k) 64 1 / 2 ^ k

/-- t * atanSeries / 2^k, the model's arctangent of t / 2^k. -/
def atanFixed (k terms t : Nat) : Nat := t * atanSeries k (t * t / 2 ^ k) terms 0 / 2 ^ k

theorem abs_sinFixed_sub_le {k r : Nat} (hz : fixedVal k r ^ 2 ≤ 5 / 2) :
    |(sinFixed k r : ℝ) - Real.sin (fixedVal k r) * 2 ^ k| ≤
      1 + fixedVal k r * 2 + r * (fixedVal k r ^ 130 / (131).factorial) := by
  obtain ⟨hle, hge⟩ := fixedVal_sq_bounds k r
  have hseries := abs_fixedProduct_sub_le (r := r) (abs_sinSeries_sub_le hle hge hz 64 le_rfl)
  have hrest := abs_sin_sub_sinTail_le (fixedVal_nonneg k r) hz 64
  rw [abs_sub_comm] at hrest
  have hscaled : |fixedVal k r * sinTail (fixedVal k r ^ 2) 64 1 * 2 ^ k - Real.sin (fixedVal k r) * 2 ^ k| ≤
      r * (fixedVal k r ^ 130 / (131).factorial) := by
    rw [← abs_sub_mul_pow, ← fixedVal_mul_pow k r]
    calc _ ≤ fixedVal k r ^ 131 / (131).factorial * 2 ^ k := by gcongr
      _ = _ := by ring
  exact (abs_sub_le _ _ _).trans (add_le_add hseries hscaled)

theorem abs_atanFixed_sub_le {k t : Nat} (terms : Nat) (hz : fixedVal k t ≤ 1 / 4) :
    |(atanFixed k terms t : ℝ) - Real.arctan (fixedVal k t) * 2 ^ k| ≤
      2 + t * fixedVal k t ^ (2 * (terms + 1)) := by
  obtain ⟨hle, hge⟩ := fixedVal_sq_bounds k t
  have hz0 := fixedVal_nonneg k t
  have hseries := abs_fixedProduct_sub_le (r := t) (abs_atanSeries_sub_le hle hge (by nlinarith) terms 0)
  have hrest := abs_arctan_sub_atanTail_le hz0 (by linarith) terms
  rw [abs_sub_comm] at hrest
  have hscaled : |fixedVal k t * atanTail (fixedVal k t ^ 2) terms 0 * 2 ^ k - Real.arctan (fixedVal k t) * 2 ^ k| ≤
      t * fixedVal k t ^ (2 * (terms + 1)) := by
    rw [← abs_sub_mul_pow]
    calc _ ≤ fixedVal k t ^ (2 * (terms + 1) + 1) * 2 ^ k := by
          gcongr
          exact hrest.trans (div_le_self (by positivity) (Nat.one_le_cast.mpr (by omega)))
      _ = fixedVal k t * 2 ^ k * fixedVal k t ^ (2 * (terms + 1)) := by ring
      _ = _ := by rw [fixedVal_mul_pow]
  refine (abs_sub_le _ _ _).trans ((add_le_add hseries hscaled).trans ?_)
  linarith

end Sys2Proof.Proofs
end

section
/-! PROOFS. The digits of pi the sine's argument is reduced by (notes/assumptions/13): Machin's formula, its two
arctangents evaluated in fixed point. -/

namespace Sys2Proof.Proofs

open Sys2Proof.Machine

theorem abs_arctan_sub_arctan_le (x y : ℝ) : |Real.arctan x - Real.arctan y| ≤ |x - y| := by
  have hderiv (z : ℝ) : ‖deriv Real.arctan z‖ ≤ 1 := by
    rw [Real.deriv_arctan, Real.norm_of_nonneg (by positivity)]
    exact div_le_one_of_le₀ (by nlinarith [sq_nonneg z]) (by positivity)
  simpa using Convex.norm_image_sub_le_of_norm_deriv_le (fun z _ => Real.differentiable_arctan z)
    (fun z _ => hderiv z) convex_univ (Set.mem_univ y) (Set.mem_univ x)

theorem abs_arctan_sub_scaled {a b c : ℝ} {k : Nat} (h : |a - b| * 2 ^ k ≤ c) :
    |Real.arctan a * 2 ^ k - Real.arctan b * 2 ^ k| ≤ c := by
  rw [← abs_sub_mul_pow]
  exact (mul_le_mul_of_nonneg_right (abs_arctan_sub_arctan_le a b) (by positivity)).trans h

/-- The arctangent of 1/d in fixed point, with terms enough for the bits kept. -/
theorem abs_atanFixed_inv_sub_le {k terms d : Nat} (hd : 4 ≤ d) (hk : k ≤ 2 * (2 * (terms + 1))) :
    |(atanFixed k terms (2 ^ k / d) : ℝ) - Real.arctan (d : ℝ)⁻¹ * 2 ^ k| ≤ 4 := by
  have hpos : (0 : ℝ) < 2 ^ k := by positivity
  have hd0 : (4 : ℝ) ≤ d := by exact_mod_cast hd
  have hfloor := abs_natDiv_sub_le (2 ^ k) (b := d) (by omega)
  rw [Nat.cast_pow, Nat.cast_two, ← inv_mul_eq_div] at hfloor
  have hle : ((2 ^ k / d : ℕ) : ℝ) ≤ 2 ^ k := by exact_mod_cast Nat.div_le_self _ _
  have hval : fixedVal k (2 ^ k / d) ≤ 1 / 4 := by
    rw [fixedVal, div_le_iff₀ hpos]
    refine (natDiv_le_real _ _).trans ?_
    rw [Nat.cast_pow, Nat.cast_two, div_le_iff₀ (by linarith)]
    nlinarith
  generalize 2 ^ k / d = t at *
  have harg : |Real.arctan (fixedVal k t) * 2 ^ k - Real.arctan (d : ℝ)⁻¹ * 2 ^ k| ≤ 1 := by
    refine abs_arctan_sub_scaled ?_
    rwa [abs_sub_mul_pow, fixedVal_mul_pow]
  have hrest : t * fixedVal k t ^ (2 * (terms + 1)) ≤ 1 :=
    calc t * fixedVal k t ^ (2 * (terms + 1))
        ≤ 2 ^ k * (1 / 4) ^ (2 * (terms + 1)) := by
          gcongr
          · exact pow_nonneg (fixedVal_nonneg _ _) _
          · exact fixedVal_nonneg _ _
      _ = 2 ^ k * (1 / 2) ^ (2 * (2 * (terms + 1))) := by rw [pow_mul (1 / 2 : ℝ) 2]; norm_num
      _ ≤ 2 ^ k * (1 / 2) ^ k := by
          gcongr 2 ^ k * ?_
          exact pow_le_pow_of_le_one (by norm_num) (by norm_num) hk
      _ = 1 := by rw [← mul_pow]; norm_num
  refine (abs_sub_le _ _ _).trans ((add_le_add (abs_atanFixed_sub_le terms hval) harg).trans ?_)
  linarith

/-- arctan(1/d) in units of 2^-1600, 64 bits finer than `piScaled`. -/
def machinArctan (d : Nat) : Nat := atanFixed (piScaledBits + 64) 400 (2 ^ (piScaledBits + 64) / d)

/-- Machin's formula in fixed point encloses the written digits with 64 bits to spare. -/
theorem piScaled_machin :
    (piScaled * 2 ^ 64 + 80) + 4 * machinArctan 239 ≤ 16 * machinArctan 5 ∧
      16 * machinArctan 5 + 80 < (piScaled + 1) * 2 ^ 64 + 4 * machinArctan 239 := by
  decide +kernel

/-- The written digits are those of pi. -/
theorem piScaled_bounds : (piScaled : ℝ) ≤ Real.pi * 2 ^ piScaledBits ∧ Real.pi * 2 ^ piScaledBits < piScaled + 1 := by
  have h5 : |(machinArctan 5 : ℝ) - _| ≤ 4 := abs_atanFixed_inv_sub_le (d := 5) (by decide) (by decide)
  have h239 : |(machinArctan 239 : ℝ) - _| ≤ 4 := abs_atanFixed_inv_sub_le (d := 239) (by decide) (by decide)
  have hmachin := Real.four_mul_arctan_inv_5_sub_arctan_inv_239
  rw [Nat.cast_ofNat, pow_add, abs_le] at h5 h239
  have hlow : ((piScaled : ℝ) * 2 ^ 64 + 80) + 4 * machinArctan 239 ≤ 16 * machinArctan 5 := by
    exact_mod_cast piScaled_machin.1
  have hhigh : 16 * (machinArctan 5 : ℝ) + 80 < (piScaled + 1) * 2 ^ 64 + 4 * machinArctan 239 := by
    exact_mod_cast piScaled_machin.2
  have hpi : Real.pi * 2 ^ piScaledBits * 2 ^ 64 =
      16 * (Real.arctan 5⁻¹ * (2 ^ piScaledBits * 2 ^ 64)) - 4 * (Real.arctan 239⁻¹ * (2 ^ piScaledBits * 2 ^ 64)) := by
    linear_combination -4 * (2 ^ piScaledBits * 2 ^ 64) * hmachin
  have h64 : (0 : ℝ) < 2 ^ 64 := by positivity
  constructor
  · refine le_of_mul_le_mul_right ?_ h64
    linarith
  · refine lt_of_mul_lt_mul_right ?_ h64.le
    linarith

/-- The integer part of pi * 2^w is cut from the written digits. -/
theorem piScaled_truncated {w : Nat} (hw : w ≤ piScaledBits) :
    ((piScaled / 2 ^ (piScaledBits - w) : ℕ) : ℝ) ≤ Real.pi * 2 ^ w ∧
      Real.pi * 2 ^ w < (piScaled / 2 ^ (piScaledBits - w) : ℕ) + 1 := by
  obtain ⟨hlow, hhigh⟩ := piScaled_bounds
  generalize piScaled = p at *
  obtain ⟨d, hd⟩ := Nat.exists_eq_add_of_le hw
  rw [hd, pow_add, ← mul_assoc] at hlow hhigh
  rw [hd, Nat.add_sub_cancel_left]
  have hpos : (0 : ℝ) < 2 ^ d := by positivity
  have hfloor : (p / 2 ^ d : ℕ) * 2 ^ d ≤ p := Nat.div_mul_le_self _ _
  have hceil : p + 1 ≤ (p / 2 ^ d + 1) * 2 ^ d := Nat.lt_mul_of_div_lt (Nat.lt_succ_self _) (by positivity)
  constructor
  · refine le_of_mul_le_mul_right (le_trans ?_ hlow) hpos
    exact_mod_cast hfloor
  · refine lt_of_mul_lt_mul_right (hhigh.trans_le ?_) hpos.le
    exact_mod_cast hceil

end Sys2Proof.Proofs
end

section
/-! PROOFS. The sine's enclosure holds the real sine (47_synth.md R352, notes/assumptions/13): the argument modulo pi,
folded to [0, pi/2], and the series there. -/

namespace Sys2Proof.Proofs

open Sys2Proof.Machine

/-! What a finite pattern unpacks to. -/

theorem f64Unpack_bounds {x : Word} {neg : Bool} {m : Nat} {e : Int} (h : f64Unpack x = .fin neg m e) :
    m < 2 ^ 53 ∧ -1074 ≤ e ∧ e ≤ 971 := by
  have hfr : x.toNat % 2 ^ 52 < 2 ^ 52 := Nat.mod_lt _ (by decide)
  simp only [f64Unpack] at h
  split_ifs at h with hnonfin _ hsub <;> obtain ⟨-, rfl, rfl⟩ := F64Value.fin.inj h <;> omega

/-- The fixed-point form of m * 2^e with w bits after the point is exact where w reaches 2^e. -/
theorem fixedVal_dyadic (m : Nat) {e : Int} {w : Nat} (h : 0 ≤ e + w) :
    fixedVal w (m * 2 ^ (e + w).toNat) = m * 2 ^ e := by
  rw [fixedVal, div_eq_iff (by positivity), mul_assoc]
  push_cast
  congr 1
  rw [← zpow_natCast, ← zpow_natCast, Int.toNat_of_nonneg h, zpow_add₀ two_ne_zero]

theorem abs_sin_sub_scaled {a b c : ℝ} {k : Nat} (h : |a - b| * 2 ^ k ≤ c) :
    |Real.sin a * 2 ^ k - Real.sin b * 2 ^ k| ≤ c := by
  rw [← abs_sub_mul_pow]
  exact (mul_le_mul_of_nonneg_right (Real.abs_sin_sub_sin_le a b) (by positivity)).trans h

/-- A distance small against the finer unit 2^-w is at most one unit of 2^-k. -/
theorem abs_sub_scaled_le_one {a b c : ℝ} {k w : Nat} (hkw : k ≤ w) (h : |a - b| * 2 ^ w ≤ c) (hc : c ≤ 2 ^ (w - k)) :
    |a - b| * 2 ^ k ≤ 1 := by
  refine le_of_mul_le_mul_right ?_ (by positivity : (0 : ℝ) < 2 ^ (w - k))
  rw [one_mul, mul_assoc, ← pow_add, Nat.add_sub_cancel' hkw]
  exact h.trans hc

/-! The reduction of the argument: x / 2^w modulo pi, for p the integer part of pi * 2^w. -/

section
variable {w p : Nat} (hp : (p : ℝ) ≤ Real.pi * 2 ^ w) (hp' : Real.pi * 2 ^ w < p + 1)
include hp hp'

/-- The remainder modulo p is the argument less the same number of turns of pi, within a unit for each turn. -/
theorem abs_fixedVal_mod_sub_le (x : Nat) :
    |fixedVal w (x % p) - (fixedVal w x - (x / p : ℕ) * Real.pi)| * 2 ^ w ≤ (x / p : ℕ) := by
  have hdiv : (x : ℝ) = p * (x / p : ℕ) + (x % p : ℕ) := by exact_mod_cast (Nat.div_add_mod x p).symm
  have hturns : (0 : ℝ) ≤ (x / p : ℕ) := Nat.cast_nonneg _
  rw [abs_sub_mul_pow, sub_mul, fixedVal_mul_pow, fixedVal_mul_pow, mul_assoc]
  generalize Real.pi * 2 ^ w = pw at *
  rw [abs_le]
  constructor <;> nlinarith

/-- Folding the remainder at half a turn keeps its sine, within a unit. -/
theorem abs_sin_fold_sub_le {rest : Nat} (hrest : rest ≤ p) :
    |Real.sin (fixedVal w (min rest (p - rest))) - Real.sin (fixedVal w rest)| * 2 ^ w ≤ 1 := by
  rcases min_choice rest (p - rest) with h | h
  · rw [h, sub_self, abs_zero, zero_mul]
    exact zero_le_one
  rw [h, ← Real.sin_pi_sub (fixedVal w rest), abs_sub_mul_pow]
  refine abs_sin_sub_scaled ?_
  rw [abs_sub_mul_pow, sub_mul, fixedVal_mul_pow, fixedVal_mul_pow, Nat.cast_sub hrest, abs_le]
  constructor <;> linarith

omit hp' in
theorem fixedVal_fold_le (rest : Nat) : fixedVal w (min rest (p - rest)) ≤ Real.pi / 2 := by
  have hhalf : ((2 * min rest (p - rest) : ℕ) : ℝ) ≤ p := by exact_mod_cast (by omega : 2 * min rest (p - rest) ≤ p)
  rw [fixedVal, div_le_iff₀ (by positivity)]
  push_cast at hhalf
  push_cast
  linarith

end

/-- Dropping the low w - k bits. -/
theorem fixedVal_truncate {k w : Nat} (hkw : k ≤ w) (n : Nat) :
    fixedVal k (n / 2 ^ (w - k)) ≤ fixedVal w n ∧ |fixedVal k (n / 2 ^ (w - k)) - fixedVal w n| * 2 ^ k ≤ 1 := by
  have hpos : (0 : ℝ) < 2 ^ k := by positivity
  have hexact : fixedVal w n * 2 ^ k = n / (2 ^ (w - k) : ℕ) := by
    obtain ⟨d, rfl⟩ := Nat.exists_eq_add_of_le hkw
    rw [fixedVal, pow_add, Nat.add_sub_cancel_left]
    push_cast
    field_simp
  constructor
  · refine le_of_mul_le_mul_right ?_ hpos
    rw [fixedVal_mul_pow, hexact]
    exact natDiv_le_real _ _
  · rw [abs_sub_mul_pow, fixedVal_mul_pow, hexact]
    exact abs_natDiv_sub_le _ (by positivity)

/-- The folded remainder of x modulo p, from w bits to k. -/
def reducedArg (k w p x : Nat) : Nat := min (x % p) (p - x % p) / 2 ^ (w - k)

/-- The last term of the series, in units of 2^-k, for an argument of at most 2 and of at most 2^373 units. -/
theorem sin_rest_le_one {r : Nat} {z : ℝ} (hz0 : 0 ≤ z) (hz : z ≤ 2) (hr : r ≤ 2 ^ 373) :
    r * (z ^ 130 / (131).factorial) ≤ 1 := by
  have hfact : 2 ^ 373 * 2 ^ 130 ≤ (131).factorial := by decide +kernel
  have hfact' : ((2 : ℝ) ^ 373) * 2 ^ 130 ≤ (131).factorial := by exact_mod_cast hfact
  rw [← mul_div_assoc]
  refine div_le_one_of_le₀ (le_trans ?_ hfact') (Nat.cast_nonneg _)
  gcongr
  exact_mod_cast hr

/-- The model's sine of the reduced argument is the sine of the argument less its turns, within 16 units of 2^-k. -/
theorem abs_sinFixed_reducedArg_sub_le {k w p x : Nat} (hkw : k ≤ w) (hp : (p : ℝ) ≤ Real.pi * 2 ^ w)
    (hp' : Real.pi * 2 ^ w < p + 1) (hp0 : 0 < p) (hturns : x / p ≤ 2 ^ (w - k)) (hr : reducedArg k w p x ≤ 2 ^ 373) :
    |(sinFixed k (reducedArg k w p x) : ℝ) - Real.sin (fixedVal w x - (x / p : ℕ) * Real.pi) * 2 ^ k| ≤ 16 := by
  obtain ⟨hzle, htrunc⟩ := fixedVal_truncate hkw (min (x % p) (p - x % p))
  have hfold := abs_sub_scaled_le_one hkw (abs_sin_fold_sub_le hp hp' (Nat.mod_lt x hp0).le) (one_le_pow₀ one_le_two)
  have hmod := abs_sub_scaled_le_one hkw (abs_fixedVal_mod_sub_le hp hp' x) (by exact_mod_cast hturns)
  have hz0 := fixedVal_nonneg k (reducedArg k w p x)
  have hz : fixedVal k (reducedArg k w p x) ≤ Real.pi / 2 := hzle.trans (fixedVal_fold_le hp _)
  rw [← reducedArg] at htrunc
  generalize reducedArg k w p x = r at *
  have hpi := Real.pi_lt_d2
  have hseries := abs_sinFixed_sub_le (k := k) (r := r) (by nlinarith)
  have hrest := sin_rest_le_one hz0 (by linarith) hr
  have htrunc' := abs_sin_sub_scaled htrunc
  have hmod' := abs_sin_sub_scaled hmod
  rw [abs_sub_mul_pow] at hfold
  rw [abs_le] at *
  constructor <;> linarith

/-! The enclosure. -/

/-- What a fixed-point number within b units of a signed real says of that real's magnitude and sign. -/
theorem enclosure_of_near {s k b : Nat} {neg : Bool} {v y : ℝ} (hnear : |(s : ℝ) - v * 2 ^ k| ≤ b)
    (hy : y = ((f64Sign neg : ℚ) : ℝ) * v) :
    ((s - b : ℕ) : ℝ) ≤ |y| * 2 ^ k ∧ |y| * 2 ^ k ≤ (s + b : ℕ) ∧ (0 < s - b → (neg = true ↔ y < 0)) := by
  have hpos : (0 : ℝ) < 2 ^ k := by positivity
  have habs : |y| * 2 ^ k = |v * 2 ^ k| := by
    rw [hy, abs_mul, ← Rat.cast_abs, abs_f64Sign, Rat.cast_one, one_mul, abs_mul, abs_of_pos hpos]
  obtain ⟨hlow, hhigh⟩ := abs_le.mp hnear
  refine ⟨?_, ?_, fun hlo => ?_⟩
  · rcases le_total s b with hsb | hsb
    · rw [Nat.sub_eq_zero_of_le hsb, Nat.cast_zero]
      positivity
    · rw [Nat.cast_sub hsb, habs]
      linarith [le_abs_self (v * 2 ^ k)]
  · rw [habs, abs_le]
    have hs : (0 : ℝ) ≤ s := Nat.cast_nonneg s
    push_cast
    constructor <;> linarith
  · have hbs : (b : ℝ) < s := by exact_mod_cast (by omega : b < s)
    have hv : 0 < v := pos_of_mul_pos_left (by linarith : 0 < v * 2 ^ k) hpos.le
    rw [hy]
    cases neg with
    | true => simpa [f64Sign] using hv
    | false => simpa [f64Sign] using hv.le

/-- The bits after the point of the sine. -/
def sinBits (e : Int) : Nat := 320 + (-e).toNat

/-- The bits after the point of the sine's argument. -/
def argBits (e : Int) : Nat := sinBits e + 64 + e.toNat

/-- The integer part of pi * 2^w. -/
def piBits (w : Nat) : Nat := piScaled / 2 ^ (piScaledBits - w)

/-- The argument with `argBits` bits after the point. -/
def argFixed (m : Nat) (e : Int) : Nat := m * 2 ^ (e + argBits e).toNat

theorem sinEnclosure_eq (neg : Bool) (m : Nat) (e : Int) :
    sinEnclosure neg m e =
      ⟨neg != (argFixed m e / piBits (argBits e) % 2 == 1),
        sinFixed (sinBits e) (reducedArg (sinBits e) (argBits e) (piBits (argBits e)) (argFixed m e)) - 16,
        sinFixed (sinBits e) (reducedArg (sinBits e) (argBits e) (piBits (argBits e)) (argFixed m e)) + 16,
        sinBits e⟩ := rfl

theorem neg_one_pow_eq_f64Sign (n : Nat) : (-1 : ℝ) ^ n = ((f64Sign (n % 2 == 1) : ℚ) : ℝ) := by
  rcases Nat.mod_two_eq_zero_or_one n with h | h
  · rw [h, (Nat.even_iff.mpr h).neg_one_pow]; norm_num [f64Sign]
  · rw [h, (Nat.odd_iff.mpr h).neg_one_pow]; norm_num [f64Sign]

/-- The sine of a signed argument, from that of its magnitude less some turns. -/
theorem sin_signed_eq (neg : Bool) (X : ℝ) (n : Nat) :
    Real.sin (((f64Sign neg : ℚ) : ℝ) * X) =
      ((f64Sign (neg != (n % 2 == 1)) : ℚ) : ℝ) * Real.sin (X - n * Real.pi) := by
  have hsq : ((f64Sign (n % 2 == 1) : ℚ) : ℝ) * ((f64Sign (n % 2 == 1) : ℚ) : ℝ) = 1 := by
    exact_mod_cast f64Sign_mul_self _
  rw [Real.sin_sub_nat_mul_pi, neg_one_pow_eq_f64Sign, f64Sign_bne, Rat.cast_mul, mul_assoc, ← mul_assoc, ← mul_assoc,
    mul_assoc _ _ (((f64Sign (n % 2 == 1) : ℚ) : ℝ)), hsq, mul_one]
  cases neg <;> simp [f64Sign]

theorem piBits_bounds {w : Nat} (hw : w ≤ piScaledBits) : 2 ^ w ≤ piBits w ∧ piBits w ≤ 4 * 2 ^ w := by
  obtain ⟨hlow, hhigh⟩ := piScaled_truncated hw
  rw [← piBits] at hlow hhigh
  have hone : (1 : ℝ) ≤ 2 ^ w := one_le_pow₀ one_le_two
  constructor
  · have : (2 : ℝ) ^ w < piBits w + 1 := by nlinarith [Real.pi_gt_three]
    exact Nat.lt_succ_iff.mp (by exact_mod_cast this)
  · have : (piBits w : ℝ) ≤ 4 * 2 ^ w := by nlinarith [Real.pi_le_four]
    exact_mod_cast this

/-- The sizes the error bound of the sine asks for. -/
theorem argFixed_bounds {m : Nat} {e : Int} (hm : m < 2 ^ 53) (he : argBits e ≤ piScaledBits) :
    argFixed m e / piBits (argBits e) ≤ 2 ^ (argBits e - sinBits e) ∧
      reducedArg (sinBits e) (argBits e) (piBits (argBits e)) (argFixed m e) ≤ 2 ^ 373 := by
  obtain ⟨hplow, hphigh⟩ := piBits_bounds he
  have hbits : argBits e = sinBits e + (64 + e.toNat) := Nat.add_assoc _ _ _
  have hdrop : argBits e - sinBits e = 64 + e.toNat := by omega
  rw [hdrop]
  constructor
  · calc argFixed m e / piBits (argBits e) ≤ argFixed m e / 2 ^ argBits e := Nat.div_le_div_left hplow (by positivity)
      _ ≤ 2 ^ (64 + e.toNat) := Nat.div_le_of_le_mul ?_
    calc argFixed m e ≤ 2 ^ 53 * 2 ^ (argBits e + e.toNat) :=
          Nat.mul_le_mul hm.le (Nat.pow_le_pow_right two_pos (by omega))
      _ ≤ 2 ^ 64 * 2 ^ (argBits e + e.toNat) := by gcongr <;> norm_num
      _ = 2 ^ argBits e * 2 ^ (64 + e.toNat) := by rw [← pow_add, ← pow_add]; congr 1; ring
  · rw [reducedArg, hdrop]
    rcases lt_or_ge e 0 with hneg | hpos
    · refine Nat.div_le_of_le_mul ((min_le_left _ _).trans ((Nat.mod_le _ _).trans ?_))
      have hexp : (e + argBits e).toNat = 384 := by rw [argBits, sinBits]; omega
      calc argFixed m e ≤ 2 ^ 53 * 2 ^ 384 := by rw [argFixed, hexp]; gcongr
        _ = 2 ^ (64 + 0) * 2 ^ 373 := by rw [← pow_add, ← pow_add]
        _ = 2 ^ (64 + e.toNat) * 2 ^ 373 := by rw [Int.toNat_of_nonpos hneg.le]
    · refine Nat.div_le_of_le_mul ((min_le_right _ _).trans ((Nat.sub_le _ _).trans (hphigh.trans ?_)))
      have hk : sinBits e = 320 := by rw [sinBits]; omega
      calc 4 * 2 ^ argBits e = 2 ^ (64 + e.toNat) * 2 ^ 322 := by
            rw [hbits, hk, show 4 = 2 ^ 2 by norm_num, ← pow_add, ← pow_add]; congr 1; ring
        _ ≤ 2 ^ (64 + e.toNat) * 2 ^ 373 := by gcongr <;> norm_num

/-- The sine half of the enclosures: the conclusion of `enclosure_of_near` for the real sine. -/
theorem sinEnclosure_holds {neg : Bool} {m : Nat} {e : Int} (hm : m < 2 ^ 53) (hlow : -1074 ≤ e) (hhigh : e ≤ 971)
    {x : ℝ} (hx : x = ((f64Sign neg : ℚ) : ℝ) * (m * 2 ^ e)) :
    let v := sinEnclosure neg m e
    (v.lo : ℝ) ≤ |Real.sin x| * 2 ^ v.k ∧ |Real.sin x| * 2 ^ v.k ≤ v.hi ∧
      (0 < v.lo → (v.neg = true ↔ Real.sin x < 0)) := by
  have he : argBits e ≤ piScaledBits := by rw [argBits, sinBits, piScaledBits]; omega
  obtain ⟨hp, hp'⟩ := piScaled_truncated he
  obtain ⟨hturns, hr⟩ := argFixed_bounds hm he
  have hval : fixedVal (argBits e) (argFixed m e) = m * 2 ^ e :=
    fixedVal_dyadic m (by rw [argBits, sinBits]; omega)
  have hkw : sinBits e ≤ argBits e := by rw [argBits]; omega
  rw [← piBits] at hp hp'
  have hp0 : 0 < piBits (argBits e) := lt_of_lt_of_le (by positivity) (piBits_bounds he).1
  have hnear := abs_sinFixed_reducedArg_sub_le hkw hp hp' hp0 hturns hr
  rw [hval] at hnear
  rw [sinEnclosure_eq, hx]
  exact enclosure_of_near (b := 16) hnear (sin_signed_eq _ _ _)

end Sys2Proof.Proofs
end

section
/-! PROOFS. The square root the arcsine's enclosure uses (notes/assumptions/13): Newton's iteration downwards does not pass
the integer root, and squares its relative error at each step, so that 32 steps are enough. -/

namespace Sys2Proof.Proofs

open Sys2Proof.Machine

/-! Newton's iteration. -/

/-- A step of the iteration does not fall below the integer square root. -/
theorem lt_sq_newton_step {n x : Nat} (hx : 0 < x) : n < ((x + n / x) / 2 + 1) ^ 2 := by
  have hn : n < x * (n / x + 1) := by rw [mul_add_one]; exact Nat.lt_mul_div_succ n hx |>.trans_eq (by ring)
  generalize n / x = q at *
  have hstep : x + q + 1 ≤ 2 * ((x + q) / 2 + 1) := by omega
  generalize (x + q) / 2 = x' at *
  zify at *
  nlinarith [sq_nonneg ((x : ℤ) - (q + 1))]

/-- The iteration stays above the square root less 1, whatever the fuel. -/
theorem lt_sq_sqrtDescend {n : Nat} (hn : 0 < n) (fuel : Nat) {x : Nat} (hx : n < (x + 1) ^ 2) :
    n < (sqrtDescend n fuel x + 1) ^ 2 := by
  induction fuel generalizing x with
  | zero => exact hx
  | succ fuel ih =>
    have hx0 : 0 < x := by
      rcases Nat.eq_zero_or_pos x with rfl | h
      · omega
      · exact h
    rw [sqrtDescend]
    split
    · exact hx
    · exact ih (lt_sq_newton_step hx0)

/-- A relative error of 2 d above the square root is 2 d^2 after a step: Newton's iteration squares it. -/
theorem newton_step_le {n x : Nat} {d : ℝ} (hx : √n < x) (hd : (x : ℝ) ≤ √n * (1 + 2 * d)) :
    (((x + n / x) / 2 : ℕ) : ℝ) ≤ √n * (1 + 2 * d ^ 2) := by
  have hs0 : 0 ≤ √(n : ℝ) := Real.sqrt_nonneg _
  have hx0 : (0 : ℝ) < x := hs0.trans_lt hx
  have hsq : √(n : ℝ) * √n = n := Real.mul_self_sqrt (Nat.cast_nonneg n)
  have hstep : (((x + n / x) / 2 : ℕ) : ℝ) ≤ (x + n / x) / 2 := by
    refine (natDiv_le_real _ _).trans ?_
    push_cast
    gcongr
    exact natDiv_le_real _ _
  generalize √(n : ℝ) = s at *
  refine hstep.trans ?_
  rw [← hsq, div_le_iff₀ two_pos, ← sub_nonneg, ← mul_nonneg_iff_of_pos_left hx0]
  have hexact : x * (s * (1 + 2 * d ^ 2) * 2 - (x + s * s / x)) = 4 * s * d ^ 2 * x - (x - s) ^ 2 := by
    field_simp
    ring
  rw [hexact, sub_nonneg]
  calc ((x : ℝ) - s) ^ 2 ≤ (2 * s * d) ^ 2 := by
        refine pow_le_pow_left₀ (sub_nonneg.mpr hx.le) ?_ 2
        linarith
    _ = 4 * s * d ^ 2 * s := by ring
    _ ≤ 4 * s * d ^ 2 * x := by gcongr

theorem sqrtDescend_le {n : Nat} (fuel : Nat) {x : Nat} {d : ℝ} (hd0 : 0 ≤ d) (hx : (x : ℝ) ≤ √n * (1 + 2 * d)) :
    (sqrtDescend n fuel x : ℝ) ≤ √n * (1 + 2 * d ^ 2 ^ fuel) := by
  induction fuel generalizing x d with
  | zero => simpa [sqrtDescend] using hx
  | succ fuel ih =>
    have hs0 : 0 ≤ √(n : ℝ) := Real.sqrt_nonneg _
    rw [sqrtDescend]
    split
    next hstop =>
      have hsq : x * x ≤ n := by
        rcases Nat.eq_zero_or_pos x with rfl | hx0
        · exact Nat.zero_le _
        · exact (Nat.le_div_iff_mul_le hx0).mp (by omega)
      have hle : (x : ℝ) ≤ √n := Real.le_sqrt_of_sq_le (by exact_mod_cast (by rwa [sq] : x ^ 2 ≤ n))
      refine hle.trans (le_mul_of_one_le_right hs0 ?_)
      have : 0 ≤ d ^ 2 ^ (fuel + 1) := by positivity
      linarith
    next hgo =>
      have hlt : √(n : ℝ) < x := by
        have hx0 : 0 < x := (Nat.zero_le _).trans_lt (not_le.mp hgo)
        have : n < x * x := (Nat.div_lt_iff_lt_mul hx0).mp (by omega)
        rw [Real.sqrt_lt' (by exact_mod_cast hx0)]
        exact_mod_cast (by rwa [sq] : n < x ^ 2)
      have hnext := ih (sq_nonneg d) (newton_step_le hlt hx)
      rwa [← pow_mul, ← pow_succ'] at hnext

/-- With fuel enough for the bits of the root, the iteration ends within 1 of it. -/
theorem sqrtDescend_le_add_one {n x b fuel : Nat} (hn : n ≤ (2 ^ b) ^ 2) (hfuel : b + 1 ≤ 2 ^ fuel)
    (hx : (x : ℝ) ≤ √n * (1 + 2 * (1 / 2))) : (sqrtDescend n fuel x : ℝ) ≤ √n + 1 := by
  have hroot : √(n : ℝ) ≤ 2 ^ b := Real.sqrt_le_iff.mpr ⟨by positivity, by exact_mod_cast hn⟩
  have hsmall : (1 / 2 : ℝ) ^ 2 ^ fuel ≤ (1 / 2) ^ (b + 1) := pow_le_pow_of_le_one (by norm_num) (by norm_num) hfuel
  have hrest : √(n : ℝ) * (2 * (1 / 2) ^ 2 ^ fuel) ≤ 1 :=
    calc √(n : ℝ) * (2 * (1 / 2) ^ 2 ^ fuel) ≤ 2 ^ b * (2 * (1 / 2) ^ (b + 1)) := by gcongr
      _ = 1 := by rw [← mul_assoc, ← pow_succ, ← mul_pow]; norm_num
  refine (sqrtDescend_le fuel (by norm_num) hx).trans ?_
  rw [mul_add, mul_one]
  linarith

/-- The start of `sqrtFloor`: above the square root, and at most twice it. -/
theorem sqrt_start_bounds {n : Nat} (hn : n ≠ 0) :
    n < (2 ^ (n.log2 / 2 + 1) + 1) ^ 2 ∧ ((2 ^ (n.log2 / 2 + 1) : ℕ) : ℝ) ≤ √n * (1 + 2 * (1 / 2)) := by
  constructor
  · calc n < 2 ^ (n.log2 + 1) := Nat.lt_log2_self
      _ ≤ 2 ^ ((n.log2 / 2 + 1) * 2) := Nat.pow_le_pow_right two_pos (by omega)
      _ = (2 ^ (n.log2 / 2 + 1)) ^ 2 := pow_mul _ _ _
      _ ≤ _ := Nat.pow_le_pow_left (Nat.le_succ _) 2
  · have hle : (2 ^ (n.log2 / 2)) ^ 2 ≤ n :=
      calc (2 ^ (n.log2 / 2)) ^ 2 = 2 ^ (n.log2 / 2 * 2) := (pow_mul _ _ _).symm
        _ ≤ 2 ^ n.log2 := Nat.pow_le_pow_right two_pos (by omega)
        _ ≤ n := Nat.log2_self_le hn
    have hroot : ((2 : ℝ) ^ (n.log2 / 2)) ≤ √n := Real.le_sqrt_of_sq_le (by exact_mod_cast hle)
    push_cast
    rw [pow_succ]
    linarith

/-- `sqrtFloor` is the square root, within 1. -/
theorem sqrtFloor_bounds {n b : Nat} (hn : n ≤ (2 ^ b) ^ 2) (hb : b < 2 ^ 32) :
    n < (sqrtFloor n + 1) ^ 2 ∧ |(sqrtFloor n : ℝ) - √n| ≤ 1 := by
  rcases eq_or_ne n 0 with rfl | hn0
  · simp [sqrtFloor]
  obtain ⟨hstart, hstart'⟩ := sqrt_start_bounds hn0
  rw [sqrtFloor, if_neg hn0]
  have hlow := lt_sq_sqrtDescend (Nat.pos_of_ne_zero hn0) 32 hstart
  have hhigh := sqrtDescend_le_add_one hn hb hstart'
  generalize sqrtDescend n 32 _ = s at *
  have hlow' : √(n : ℝ) < s + 1 := (Real.sqrt_lt' (by positivity)).mpr (by exact_mod_cast hlow)
  refine ⟨hlow, abs_le.mpr ⟨?_, ?_⟩⟩ <;> linarith

end Sys2Proof.Proofs
end

section
/-! PROOFS. The arcsine's enclosure holds the real arcsine (47_synth.md R352, notes/assumptions/13): the half-angle
tangents down to an eighth of the angle, and the arctangent's series there; and O60. -/

namespace Sys2Proof.Proofs

open Sys2Proof.Machine

/-! Half angles. -/

theorem two_mul_arctan_div_one_add {a R : ℝ} (ha : 0 ≤ a) (hlt : a < 1 + R) :
    2 * Real.arctan (a / (1 + R)) = Real.arctan (2 * a * (1 + R) / ((1 + R) ^ 2 - a ^ 2)) := by
  have hpos : 0 < 1 + R := ha.trans_lt hlt
  have hden : (1 + R) ^ 2 - a ^ 2 ≠ 0 := by nlinarith
  have hle : 0 ≤ a / (1 + R) := by positivity
  rw [Real.two_mul_arctan (by linarith) ((div_lt_one hpos).mpr hlt)]
  congr 1
  have hne : 1 - (a / (1 + R)) ^ 2 ≠ 0 := by
    rw [div_pow, one_sub_div (by positivity)]
    exact div_ne_zero hden (by positivity)
  field_simp

theorem two_mul_arctan_half {a : ℝ} (ha : 0 ≤ a) :
    2 * Real.arctan (a / (1 + √(1 + a ^ 2))) = Real.arctan a := by
  have hsq : √(1 + a ^ 2) ^ 2 = 1 + a ^ 2 := Real.sq_sqrt (by positivity)
  have hlt : a < 1 + √(1 + a ^ 2) := (Real.le_sqrt_of_sq_le (by linarith)).trans_lt (lt_one_add _)
  have hR := Real.sqrt_nonneg (1 + a ^ 2)
  rw [two_mul_arctan_div_one_add ha hlt]
  generalize √(1 + a ^ 2) = R at *
  rw [show (1 + R) ^ 2 - a ^ 2 = 2 * (1 + R) by linear_combination hsq]
  congr 1
  field_simp

theorem two_mul_arctan_half_arcsin {Y : ℝ} (hY0 : 0 ≤ Y) (hY1 : Y < 1) :
    2 * Real.arctan (Y / (1 + √(1 - Y ^ 2))) = Real.arcsin Y := by
  have hpos : 0 < 1 - Y ^ 2 := by nlinarith
  have hsq : √(1 - Y ^ 2) ^ 2 = 1 - Y ^ 2 := Real.sq_sqrt hpos.le
  have hC : 0 < √(1 - Y ^ 2) := Real.sqrt_pos.mpr hpos
  rw [two_mul_arctan_div_one_add hY0 (by linarith), Real.arcsin_eq_arctan ⟨by linarith, hY1⟩]
  generalize √(1 - Y ^ 2) = C at *
  rw [show (1 + C) ^ 2 - Y ^ 2 = 2 * C * (1 + C) by linear_combination -hsq]
  congr 1
  field_simp

/-! Half angles in fixed point. -/

theorem four_pow_eq (k : Nat) : 4 ^ k = (2 ^ k) ^ 2 := by rw [← pow_mul, mul_comm, pow_mul]; norm_num

theorem sq_two_pow_succ (k : Nat) : (2 ^ (k + 1)) ^ 2 = 4 * 4 ^ k := by rw [← four_pow_eq, pow_succ']

theorem mul_self_le_four_pow {k t : Nat} (ht : t ≤ 2 ^ k) : t * t ≤ 4 ^ k := by
  rw [four_pow_eq, sq]
  exact Nat.mul_le_mul ht ht

/-- A tangent of a half angle, t / (1 + R), with R from the rounded square root. -/
theorem abs_halfTan_sub_le {k t n : Nat} {R : ℝ} (ht : t ≤ 2 ^ k) (hR : 0 ≤ R) (hn : |(n : ℝ) - R * 2 ^ k| ≤ 1) :
    |((t * 2 ^ k / (2 ^ k + n) : ℕ) : ℝ) - fixedVal k t / (1 + R) * 2 ^ k| ≤ 2 := by
  have hpos : (0 : ℝ) < 2 ^ k := by positivity
  have hfloor := abs_natDiv_sub_le (t * 2 ^ k) (b := 2 ^ k + n) (by positivity)
  have ht' : (t : ℝ) ≤ 2 ^ k := by exact_mod_cast ht
  have hsplit : ((t * 2 ^ k : ℕ) : ℝ) / ((2 ^ k + n : ℕ) : ℝ) - fixedVal k t / (1 + R) * 2 ^ k =
      t * (R * 2 ^ k - n) / ((2 ^ k + n) * (1 + R)) := by
    rw [fixedVal]
    push_cast
    field_simp
    ring
  have hexact : |((t * 2 ^ k : ℕ) : ℝ) / ((2 ^ k + n : ℕ) : ℝ) - fixedVal k t / (1 + R) * 2 ^ k| ≤ 1 := by
    rw [hsplit, abs_div, abs_of_pos (by positivity : 0 < ((2 : ℝ) ^ k + n) * (1 + R)), abs_mul, Nat.abs_cast,
      abs_sub_comm]
    refine div_le_one_of_le₀ ?_ (by positivity)
    calc (t : ℝ) * |n - R * 2 ^ k| ≤ 2 ^ k * 1 := by gcongr
      _ ≤ (2 ^ k + n) * (1 + R) := by gcongr <;> linarith [(Nat.cast_nonneg n : (0 : ℝ) ≤ n)]
  refine (abs_sub_le _ _ _).trans ((add_le_add hfloor hexact).trans ?_)
  norm_num

/-- The rounded square root of a number of units of 4^-k. -/
theorem abs_sqrtFloor_sub_le {k n : Nat} {a : ℝ} (hk : k + 1 < 2 ^ 32) (hn : n ≤ 2 * 4 ^ k) (ha : (n : ℝ) = a * 4 ^ k) :
    |(sqrtFloor n : ℝ) - √a * 2 ^ k| ≤ 1 := by
  have hfour : (4 : ℝ) ^ k = (2 ^ k) ^ 2 := by exact_mod_cast four_pow_eq k
  have hroot : √(n : ℝ) = √a * 2 ^ k := by
    rw [ha, hfour, Real.sqrt_mul' _ (by positivity), Real.sqrt_sq (by positivity)]
  rw [← hroot]
  exact (sqrtFloor_bounds (by rw [sq_two_pow_succ]; omega) hk).2

theorem halfAngleTan_le {k t : Nat} (hk : k + 1 < 2 ^ 32) (ht : t ≤ 2 ^ k) : 2 * halfAngleTan k t ≤ t := by
  have hsq := mul_self_le_four_pow ht
  have hroot : 2 ^ k ≤ sqrtFloor (4 ^ k + t * t) := by
    have hbound : 4 ^ k + t * t ≤ (2 ^ (k + 1)) ^ 2 := by rw [sq_two_pow_succ]; omega
    have hlt : (2 ^ k) ^ 2 < (sqrtFloor (4 ^ k + t * t) + 1) ^ 2 := by
      refine lt_of_le_of_lt ?_ (sqrtFloor_bounds hbound hk).1
      rw [← four_pow_eq]
      omega
    exact Nat.lt_succ_iff.mp (lt_of_pow_lt_pow_left₀ 2 (Nat.zero_le _) hlt)
  have hdiv : halfAngleTan k t ≤ t * 2 ^ k / (2 ^ k * 2) := Nat.div_le_div_left (by omega) (by positivity)
  rw [mul_comm t, Nat.mul_div_mul_left _ _ (by positivity)] at hdiv
  omega

theorem abs_arctan_halfAngleTan_sub_le {k t : Nat} (hk : k + 1 < 2 ^ 32) (ht : t ≤ 2 ^ k) :
    |Real.arctan (fixedVal k (halfAngleTan k t)) * 2 ^ k - Real.arctan (fixedVal k t) / 2 * 2 ^ k| ≤ 2 := by
  have hsq := mul_self_le_four_pow ht
  have hroot := abs_sqrtFloor_sub_le (n := 4 ^ k + t * t) (a := 1 + fixedVal k t ^ 2) hk (by omega) (by
    have hfour : (4 : ℝ) ^ k = (2 ^ k) ^ 2 := by exact_mod_cast four_pow_eq k
    rw [fixedVal]
    push_cast
    rw [hfour]
    field_simp)
  rw [← two_mul_arctan_half (fixedVal_nonneg k t), mul_div_cancel_left₀ _ two_ne_zero]
  refine abs_arctan_sub_scaled ?_
  rw [abs_sub_mul_pow, fixedVal_mul_pow]
  exact abs_halfTan_sub_le ht (Real.sqrt_nonneg _) hroot

/-- The tangent of half the angle whose sine is y / 2^k. -/
def sineHalfTan (k y : Nat) : Nat := y * 2 ^ k / (2 ^ k + sqrtFloor (4 ^ k - y * y))

theorem sineHalfTan_le (k y : Nat) : sineHalfTan k y ≤ y := by
  refine Nat.div_le_of_le_mul ?_
  rw [mul_comm]
  exact Nat.mul_le_mul_right y (Nat.le_add_right _ _)

theorem abs_arctan_sineHalfTan_sub_le {k y : Nat} (hk : k + 1 < 2 ^ 32) (hy : y < 2 ^ k) :
    |Real.arctan (fixedVal k (sineHalfTan k y)) * 2 ^ k - Real.arcsin (fixedVal k y) / 2 * 2 ^ k| ≤ 2 := by
  have hsq := mul_self_le_four_pow hy.le
  have hY1 : fixedVal k y < 1 := (div_lt_one (by positivity)).mpr (by exact_mod_cast hy)
  have hroot := abs_sqrtFloor_sub_le (n := 4 ^ k - y * y) (a := 1 - fixedVal k y ^ 2) hk (by omega) (by
    have hfour : (4 : ℝ) ^ k = (2 ^ k) ^ 2 := by exact_mod_cast four_pow_eq k
    rw [fixedVal, Nat.cast_sub hsq]
    push_cast
    rw [hfour]
    field_simp)
  rw [← two_mul_arctan_half_arcsin (fixedVal_nonneg k y) hY1, mul_div_cancel_left₀ _ two_ne_zero]
  refine abs_arctan_sub_scaled ?_
  rw [abs_sub_mul_pow, fixedVal_mul_pow]
  exact abs_halfTan_sub_le hy.le (Real.sqrt_nonneg _) hroot

/-! The enclosure. -/

/-- The tangent of an eighth of the angle whose sine is y / 2^k. -/
def sineEighthTan (k y : Nat) : Nat := halfAngleTan k (halfAngleTan k (sineHalfTan k y))

theorem asinEnclosure_eq (neg : Bool) (m : Nat) (e : Int) :
    asinEnclosure neg m e =
      ⟨neg, max (m * 2 ^ (e + sinBits e).toNat)
          (8 * atanFixed (sinBits e) 100 (sineEighthTan (sinBits e) (m * 2 ^ (e + sinBits e).toNat)) - 128),
        8 * atanFixed (sinBits e) 100 (sineEighthTan (sinBits e) (m * 2 ^ (e + sinBits e).toNat)) + 128,
        sinBits e⟩ := rfl

theorem four_mul_sineEighthTan_le {k y : Nat} (hk : k + 1 < 2 ^ 32) (hy : y < 2 ^ k) : 4 * sineEighthTan k y ≤ y := by
  have h0 := sineHalfTan_le k y
  have h1 := halfAngleTan_le hk (t := sineHalfTan k y) (by omega)
  have h2 := halfAngleTan_le hk (t := halfAngleTan k (sineHalfTan k y)) (by omega)
  rw [sineEighthTan]
  omega

/-- Eight times the model's arctangent of the eighth's tangent is the arcsine, within 128 units of 2^-k. -/
theorem abs_eighths_sub_arcsin_le {k y : Nat} (hk : k + 1 < 2 ^ 32) (hy : y < 2 ^ k) (hbits : y ≤ 2 ^ 373) :
    |((8 * atanFixed k 100 (sineEighthTan k y) : ℕ) : ℝ) - Real.arcsin (fixedVal k y) * 2 ^ k| ≤ 128 := by
  have h0 := sineHalfTan_le k y
  have h1 := halfAngleTan_le hk (t := sineHalfTan k y) (by omega)
  have hhalf := abs_arctan_sineHalfTan_sub_le hk hy
  have hquarter := abs_arctan_halfAngleTan_sub_le hk (t := sineHalfTan k y) (by omega)
  have height := abs_arctan_halfAngleTan_sub_le hk (t := halfAngleTan k (sineHalfTan k y)) (by omega)
  have hsmall := four_mul_sineEighthTan_le hk hy
  rw [← sineEighthTan] at height
  generalize sineEighthTan k y = t at *
  have hval : fixedVal k t ≤ 1 / 4 := by
    rw [fixedVal, div_le_iff₀ (by positivity)]
    have : (4 * t : ℝ) ≤ 2 ^ k := by exact_mod_cast hsmall.trans hy.le
    linarith
  have hrest : t * fixedVal k t ^ (2 * (100 + 1)) ≤ 1 :=
    calc t * fixedVal k t ^ (2 * (100 + 1)) ≤ 2 ^ 373 * (1 / 4) ^ (2 * (100 + 1)) := by
          gcongr
          · exact pow_nonneg (fixedVal_nonneg _ _) _
          · exact_mod_cast (by omega : t ≤ 2 ^ 373)
          · exact fixedVal_nonneg _ _
      _ = 2 ^ 373 * (1 / 2) ^ 373 * (1 / 2) ^ 31 := by
          rw [mul_assoc, ← pow_add, show (1 / 4 : ℝ) = (1 / 2) ^ 2 by norm_num, ← pow_mul]
      _ ≤ 1 := by rw [← mul_pow]; norm_num
  have hatan := abs_atanFixed_sub_le (k := k) (t := t) 100 hval
  push_cast
  rw [abs_le] at *
  constructor <;> linarith

theorem exponent_neg_of_lt_one {m : Nat} {e : Int} (hm : m ≠ 0) (h : (m : ℝ) * 2 ^ e < 1) : e < 0 := by
  by_contra hge
  have hpow : (1 : ℝ) ≤ 2 ^ e := one_le_zpow₀ one_le_two (not_lt.mp hge)
  have hone : (1 : ℝ) ≤ m := by exact_mod_cast Nat.one_le_iff_ne_zero.mpr hm
  nlinarith

theorem asinEnclosure_holds {neg : Bool} {m : Nat} {e : Int} (hm0 : m ≠ 0) (hm : m < 2 ^ 53) (hlow : -1074 ≤ e)
    (hlt : (m : ℝ) * 2 ^ e < 1) {x : ℝ} (hx : x = ((f64Sign neg : ℚ) : ℝ) * (m * 2 ^ e)) :
    let v := asinEnclosure neg m e
    (v.lo : ℝ) ≤ |Real.arcsin x| * 2 ^ v.k ∧ |Real.arcsin x| * 2 ^ v.k ≤ v.hi ∧
      (v.neg = true ↔ Real.arcsin x < 0) := by
  have he := exponent_neg_of_lt_one hm0 hlt
  have hk : sinBits e + 1 < 2 ^ 32 := by rw [sinBits]; omega
  have hexp : (e + sinBits e).toNat = 320 := by rw [sinBits]; omega
  have hval : fixedVal (sinBits e) (m * 2 ^ (e + sinBits e).toNat) = m * 2 ^ e :=
    fixedVal_dyadic m (by rw [sinBits]; omega)
  have hbits : m * 2 ^ (e + sinBits e).toNat ≤ 2 ^ 373 :=
    calc m * 2 ^ (e + sinBits e).toNat ≤ 2 ^ 53 * 2 ^ 320 := by rw [hexp]; gcongr
      _ = 2 ^ 373 := (pow_add 2 53 320).symm
  have hm1 : (0 : ℝ) < m * 2 ^ e := by positivity
  rw [asinEnclosure_eq]
  generalize m * 2 ^ (e + sinBits e).toNat = y at *
  rw [← hval] at hlt hm1 hx
  have hy : y < 2 ^ sinBits e := by
    have := (div_lt_one (by positivity)).mp hlt
    exact_mod_cast this
  have harc : 0 < Real.arcsin (fixedVal (sinBits e) y) := Real.arcsin_pos.mpr hm1
  have hsin : fixedVal (sinBits e) y ≤ Real.arcsin (fixedVal (sinBits e) y) := by
    conv_lhs => rw [← Real.sin_arcsin (by linarith) hlt.le]
    exact Real.sin_le harc.le
  have hx' : Real.arcsin x = ((f64Sign neg : ℚ) : ℝ) * Real.arcsin (fixedVal (sinBits e) y) := by
    rw [hx]
    cases neg <;> simp [f64Sign, Real.arcsin_neg]
  obtain ⟨hlo, hhi, -⟩ := enclosure_of_near (b := 128) (abs_eighths_sub_arcsin_le hk hy hbits) hx'
  refine ⟨?_, hhi, ?_⟩
  · rw [Nat.cast_max]
    refine max_le ?_ hlo
    rw [hx', abs_mul, ← Rat.cast_abs, abs_f64Sign, Rat.cast_one, one_mul, abs_of_pos harc,
      ← fixedVal_mul_pow (sinBits e) y]
    gcongr
  · rw [hx']
    cases neg with
    | true => simpa [f64Sign] using harc
    | false => simpa [f64Sign] using harc.le

/-- Settles O60: the fixed-point errors stay below the 16 units and the 128 units the enclosures allow. -/
theorem enclosuresHoldTheRealFunctions : Obligations.EnclosuresHoldTheRealFunctions := by
  intro x neg m e hunpack hm0
  obtain ⟨hm, hlow, hhigh⟩ := f64Unpack_bounds hunpack
  have hrat := f64Rat_of_unpack hunpack
  have hx : ((f64Rat x : ℚ) : ℝ) = ((f64Sign neg : ℚ) : ℝ) * (m * 2 ^ e) := by rw [hrat]; push_cast; rfl
  refine ⟨sinEnclosure_holds hm hlow hhigh hx, fun hlt => asinEnclosure_holds hm0 hm hlow ?_ hx⟩
  rw [hrat, abs_mul, abs_f64Sign, one_mul, abs_of_nonneg (by positivity), ← Rat.cast_lt (K := ℝ)] at hlt
  push_cast at hlt
  exact hlt

end Sys2Proof.Proofs
end

section
/-! PROOFS. SIN64 and ASIN64 as choices within 1 ulp of their enclosures (47_synth.md R352, notes/assumptions/11 and 13):
the model's integer test is the claims' condition on rationals, and the fallback is the enclosed real rounded; O51. -/

namespace Sys2Proof.Proofs

open Sys2Proof.Machine

/-! The test `withinOneUlp`. -/

/-- Within δ of a point of [lo / P, hi / P]: within δ of its ends. -/
theorem exists_near_iff {lo hi t δ P : ℚ} (hP : 0 < P) (hle : lo ≤ hi) (hδ : 0 ≤ δ) :
    (∃ r, lo ≤ r * P ∧ r * P ≤ hi ∧ |t - r| ≤ δ) ↔ lo ≤ (t + δ) * P ∧ t * P ≤ hi + δ * P := by
  constructor
  · rintro ⟨r, hlo, hhi, hr⟩
    obtain ⟨hlow, hhigh⟩ := abs_le.mp hr
    constructor <;> nlinarith
  · rintro ⟨hlow, hhigh⟩
    have hlow' : lo / P ≤ t + δ := (div_le_iff₀ hP).mpr hlow
    have hhigh' : t - δ ≤ hi / P := (le_div_iff₀ hP).mpr (by linarith)
    have hends : lo / P ≤ hi / P := div_le_div_of_nonneg_right hle hP.le
    refine ⟨max (lo / P) (min t (hi / P)), (div_le_iff₀ hP).mp (le_max_left _ _),
      (le_div_iff₀ hP).mp (max_le hends (min_le_right _ _)), abs_le.mpr ⟨?_, ?_⟩⟩
    · have : max (lo / P) (min t (hi / P)) ≤ t + δ := max_le hlow' (by linarith [min_le_left t (hi / P)])
      linarith
    · have : t - δ ≤ max (lo / P) (min t (hi / P)) := le_max_of_le_right (le_min (by linarith) hhigh')
      linarith

/-- A power of two in units of 2^-(k + c). -/
theorem cast_scaled_pow {e : Int} {k c : Nat} (h : 0 ≤ e + (k + c : ℕ)) :
    ((2 ^ (e + (k + c : ℕ)).toNat : ℕ) : ℚ) = 2 ^ e * 2 ^ k * 2 ^ c := by
  rw [Nat.cast_pow, Nat.cast_two, ← zpow_natCast, Int.toNat_of_nonneg h, zpow_add₀ two_ne_zero, zpow_natCast, pow_add,
    mul_assoc]

/-- The integer test of the lower end, in units of 2^-(k + c). -/
theorem scaled_lower_iff {lo m k c : Nat} {e ue : Int} (he : 0 ≤ e + (k + c : ℕ)) (hue : 0 ≤ ue + (k + c : ℕ)) :
    lo * 2 ^ c ≤ m * 2 ^ (e + (k + c : ℕ)).toNat + 2 ^ (ue + (k + c : ℕ)).toNat ↔
      (lo : ℚ) ≤ (m * 2 ^ e + 2 ^ ue) * 2 ^ k := by
  have hpos : (0 : ℚ) < 2 ^ c := by positivity
  rw [← Nat.cast_le (α := ℚ), Nat.cast_mul, Nat.cast_add (m * _), Nat.cast_mul m, cast_scaled_pow he,
    cast_scaled_pow hue, ← mul_le_mul_iff_left₀ hpos (b := (lo : ℚ))]
  push_cast
  ring_nf

/-- The integer test of the upper end, in units of 2^-(k + c). -/
theorem scaled_upper_iff {hi m k c : Nat} {e ue : Int} (he : 0 ≤ e + (k + c : ℕ)) (hue : 0 ≤ ue + (k + c : ℕ)) :
    m * 2 ^ (e + (k + c : ℕ)).toNat ≤ hi * 2 ^ c + 2 ^ (ue + (k + c : ℕ)).toNat ↔
      (m * 2 ^ e * 2 ^ k : ℚ) ≤ hi + 2 ^ ue * 2 ^ k := by
  have hpos : (0 : ℚ) < 2 ^ c := by positivity
  rw [← Nat.cast_le (α := ℚ), Nat.cast_mul, Nat.cast_add (hi * _), Nat.cast_mul hi, cast_scaled_pow he,
    cast_scaled_pow hue, ← mul_le_mul_iff_left₀ hpos (c := (hi + 2 ^ ue * 2 ^ k : ℚ))]
  push_cast
  ring_nf

theorem f64Sign_mul_neg_iff {neg : Bool} {v : ℚ} (hv : 0 < v) : f64Sign neg * v < 0 ↔ neg = true := by
  cases neg with
  | true => simpa [f64Sign] using hv
  | false => simpa [f64Sign] using hv.le

/-- The sign a choice must have: the enclosed real's, or none. -/
theorem sign_admitted_iff {u : Word} {neg : Bool} {m : Nat} {e : Int} (h : f64Unpack u = .fin neg m e) (side : Bool) :
    (neg == side || m == 0) = true ↔ f64Rat u = 0 ∨ (f64Rat u < 0 ↔ side = true) := by
  rw [Bool.or_eq_true, beq_iff_eq, beq_iff_eq, f64Unpack_mantissa_eq_zero h, or_comm]
  refine or_congr_right' fun hne => ?_
  have hm : m ≠ 0 := mt (f64Unpack_mantissa_eq_zero h).mp hne
  rw [f64Rat_of_unpack h, f64Sign_mul_neg_iff (by positivity)]
  exact Bool.eq_iff_iff

theorem withinOneUlp_iff {v : Enclosure} (hv : v.lo ≤ v.hi) {cap : Word} (hcap : f64Finite cap = true)
    (hcap0 : 0 ≤ f64Rat cap) (u : Word) : withinOneUlp (f64Mag cap) v u = true ↔ v.Admits (f64Rat cap) u := by
  match hu : f64Unpack u with
  | .nan => simp [withinOneUlp, hu, Enclosure.Admits, f64Finite]
  | .inf _ => simp [withinOneUlp, hu, Enclosure.Admits, f64Finite]
  | .fin neg m e =>
    have hfin : f64Finite u = true := by rw [f64Finite, hu]
    have habs : |f64Rat u| = m * 2 ^ e := by
      rw [f64Rat_of_unpack hu, abs_mul, abs_f64Sign, one_mul, abs_of_nonneg (by positivity)]
    have hmag : f64Mag u ≤ f64Mag cap ↔ |f64Rat u| ≤ f64Rat cap := by
      rw [← abs_f64Rat_le_iff hfin hcap, abs_of_nonneg hcap0]
    have hexp := (f64Unpack_bounds hu).2.1
    have hnear := exists_near_iff (t := |f64Rat u|) (δ := v.ulp) (P := 2 ^ v.k) (by positivity)
      (Nat.cast_le.mpr hv) (by rw [Enclosure.ulp]; positivity)
    simp only [withinOneUlp, hu, Bool.and_eq_true, decide_eq_true_eq, sign_admitted_iff hu, hmag]
    rw [scaled_lower_iff (k := v.k) (c := 1074) (by omega) (by omega),
      scaled_upper_iff (k := v.k) (c := 1074) (by omega) (by omega), ← habs, ← Enclosure.ulp, Enclosure.Admits, hnear]
    exact ⟨fun ⟨⟨⟨hsign, hmag⟩, hlow⟩, hhigh⟩ => ⟨hfin, hmag, hsign, hlow, hhigh⟩,
      fun ⟨_, hmag, hsign, hlow, hhigh⟩ => ⟨⟨⟨hsign, hmag⟩, hlow⟩, hhigh⟩⟩

/-! The fallback `roundEnclosure`. -/

/-- Rounding sees the sign and the magnitude apart. -/
theorem f64Round_eq_signed (neg : Bool) (num den : Nat) :
    f64Round neg num den = f64Signed neg (f64Mag (f64Round false num den)) := by
  rcases eq_or_ne num 0 with rfl | hnum
  · rw [f64Round_zero, f64Round_zero, f64Mag_f64Signed (by decide)]
  · rw [f64Round_eq _ hnum, f64Round_eq _ hnum, f64Mag_f64Signed ((min_le_left _ _).trans_lt (by decide))]

/-- Bringing a magnitude to at most a cap brings the value between the cap and its negative. -/
theorem f64Rat_signed_min {cap : Word} (hcap : f64Finite cap = true) (hcap0 : 0 ≤ f64Rat cap) {mag : Nat}
    (hmag : mag < f64InfMag) (neg : Bool) :
    f64Rat (f64Signed neg (min (f64Mag cap) mag)) =
      max (-f64Rat cap) (min (f64Rat cap) (f64Rat (f64Signed neg mag))) := by
  have hC : f64Rat cap = f64Units (f64Mag cap) / 2 ^ 1074 := by rw [← abs_of_nonneg hcap0, abs_f64Rat hcap]
  have hmin : ((f64Units (min (f64Mag cap) mag) : ℕ) : ℚ) / 2 ^ 1074 =
      min (f64Rat cap) (f64Units mag / 2 ^ 1074) := by
    rw [hC, f64Units_strictMono.monotone.map_min, Nat.cast_min, min_div_div_right (by positivity)]
  have hB : (0 : ℚ) ≤ f64Units mag / 2 ^ 1074 := by positivity
  rw [f64Rat_f64Signed ((min_le_right _ _).trans_lt hmag), f64Rat_f64Signed hmag, hmin]
  generalize (f64Units mag / 2 ^ 1074 : ℚ) = B at *
  generalize f64Rat cap = C at *
  cases neg with
  | true =>
    rw [f64Sign, if_pos rfl, neg_one_mul, neg_one_mul, min_eq_right (by linarith : -B ≤ C), max_neg_neg]
  | false =>
    rw [f64Sign, if_neg Bool.false_ne_true, one_mul, one_mul, max_eq_right (by linarith [le_min hcap0 hB])]

/-- An enclosure whose ends are in order and at most 8 together, so that its middle is rounded to a finite value. -/
structure BoundedEnclosure (v : Enclosure) : Prop where
  ordered : v.lo ≤ v.hi
  middle : v.lo + v.hi ≤ 8 * 2 ^ v.k

theorem roundEnclosure_spec {v : Enclosure} (hv : BoundedEnclosure v) {cap : Word} (hcap : f64Finite cap = true)
    (hcap0 : 0 ≤ f64Rat cap) :
    ∃ z, NearestEven v.mid z ∧
      f64Rat (roundEnclosure (f64Mag cap) v) = max (-f64Rat cap) (min (f64Rat cap) (f64Rat z)) := by
  have hround : RoundsOnce v.neg v.mid (f64Round v.neg ((v.lo + v.hi) / 2) (2 ^ v.k)) :=
    ⟨_, _, by positivity, by rw [Enclosure.mid, mul_div_assoc, Nat.cast_pow, Nat.cast_two]; rfl, rfl⟩
  have hmid : |v.mid| ≤ |f64Rat (f64OfNat 4)| := by
    have hhalf : (((v.lo + v.hi) / 2 : ℕ) : ℚ) ≤ 4 * 2 ^ v.k := by
      have := hv.middle
      exact_mod_cast (by omega : (v.lo + v.hi) / 2 ≤ 4 * 2 ^ v.k)
    rw [(f64OfNat_exact (by decide)).2, Enclosure.mid, mul_div_assoc, abs_mul, ← f64Sign, abs_f64Sign, one_mul,
      abs_of_nonneg (by positivity), Nat.abs_cast, div_le_iff₀ (by positivity)]
    exact hhalf
  obtain ⟨hfin, -⟩ := hround.bounded (f64OfNat_exact (by decide)).1 hmid
  refine ⟨_, hround.nearestEven hfin, ?_⟩
  rw [f64Round_eq_signed, f64Finite_iff, f64Mag_f64Signed (f64Mag_lt _)] at hfin
  rw [f64Round_eq_signed v.neg, roundEnclosure]
  exact f64Rat_signed_min hcap hcap0 hfin v.neg

/-- The chosen value is the claims' chosen result. -/
theorem chosenResult_chooseWithinOneUlp (c : List (Word × Word)) {v : Enclosure} (hv : BoundedEnclosure v) {cap : Word}
    (hcap : f64Finite cap = true) (hcap0 : 0 ≤ f64Rat cap) (x : Word) :
    ChosenResult c (f64Rat cap) x v (chooseWithinOneUlp c (f64Mag cap) x v) := by
  have hwithin := withinOneUlp_iff hv.ordered hcap hcap0
  rw [chooseWithinOneUlp]
  refine ⟨fun u hlookup hadmits => ?_, fun hnone => ?_⟩
  · rw [hlookup]
    exact if_pos ((hwithin u).mpr hadmits)
  · match hlookup : c.lookup x with
    | none => exact roundEnclosure_spec hv hcap hcap0
    | some u =>
      dsimp only
      rw [if_neg (mt (hwithin u).mp (hnone u hlookup))]
      exact roundEnclosure_spec hv hcap hcap0

/-! The two enclosures. -/

/-- An enclosure of a real of magnitude at most 2, and of width at most 256 units. -/
theorem bounded_of_holds {v : Enclosure} {y : ℝ} (hlo : (v.lo : ℝ) ≤ |y| * 2 ^ v.k) (hhi : |y| * 2 ^ v.k ≤ v.hi)
    (hy : |y| ≤ 2) (hwidth : v.hi ≤ v.lo + 256) (hk : 8 ≤ v.k) : BoundedEnclosure v := by
  have hpow : 2 ^ 8 ≤ 2 ^ v.k := Nat.pow_le_pow_right two_pos hk
  have hle : v.lo ≤ 2 * 2 ^ v.k := by
    have : (v.lo : ℝ) ≤ 2 * 2 ^ v.k := hlo.trans (by gcongr)
    exact_mod_cast this
  exact ⟨by exact_mod_cast hlo.trans hhi, by omega⟩

theorem sinEnclosure_bounded {x : Word} {neg : Bool} {m : Nat} {e : Int} (h : f64Unpack x = .fin neg m e) (hm : m ≠ 0) :
    BoundedEnclosure (sinEnclosure neg m e) := by
  obtain ⟨hlo, hhi, -⟩ := (enclosuresHoldTheRealFunctions x neg m e h hm).1
  refine bounded_of_holds hlo hhi ((Real.abs_sin_le_one _).trans one_le_two) ?_ ?_
  · rw [sinEnclosure_eq]; dsimp only; omega
  · rw [sinEnclosure_eq]; dsimp only; rw [sinBits]; omega

theorem asinEnclosure_bounded {x : Word} {neg : Bool} {m : Nat} {e : Int} (h : f64Unpack x = .fin neg m e) (hm : m ≠ 0)
    (hx : |f64Rat x| < 1) : BoundedEnclosure (asinEnclosure neg m e) := by
  obtain ⟨hlo, hhi, -⟩ := (enclosuresHoldTheRealFunctions x neg m e h hm).2 hx
  refine bounded_of_holds hlo hhi ?_ ?_ ?_
  · have := Real.pi_le_four
    exact abs_le.mpr ⟨by linarith [Real.neg_pi_div_two_le_arcsin ((f64Rat x : ℚ) : ℝ)],
      by linarith [Real.arcsin_le_pi_div_two ((f64Rat x : ℚ) : ℝ)]⟩
  · rw [asinEnclosure_eq]; dsimp only; omega
  · rw [asinEnclosure_eq]; dsimp only; rw [sinBits]; omega

theorem asin64_of_abs_lt_one (c : List (Word × Word)) {x : Word} {neg : Bool} {m : Nat} {e : Int}
    (h : f64Unpack x = .fin neg m e) (hm : m ≠ 0) (hx : |f64Rat x| < 1) :
    asin64 c x = chooseWithinOneUlp c (f64Mag f64HalfPi) x (asinEnclosure neg m e) := by
  have hfin : f64Finite x = true := by rw [f64Finite, h]
  have hmag : f64Mag x < f64Mag f64One := by
    rwa [← not_le, ← abs_f64Rat_le_iff (by decide) hfin, f64Rat_one, abs_one, not_le]
  simp only [asin64, h, if_neg hm, if_neg hmag.ne, if_neg hmag.le.not_gt]

theorem asin64_one (c : List (Word × Word)) : asin64 c f64One = 0x3FF921FB54442D18 := by
  simp only [asin64, show f64Unpack f64One = .fin false (2 ^ 52) (-52) by decide]
  rw [if_neg (by decide), if_pos (by decide)]
  decide

theorem asin64_neg_one (c : List (Word × Word)) : asin64 c 0xBFF0000000000000 = 0xBFF921FB54442D18 := by
  simp only [asin64, show f64Unpack 0xBFF0000000000000 = .fin true (2 ^ 52) (-52) by decide]
  rw [if_neg (by decide), if_pos (by decide)]
  decide

/-- Settles O51: the fixed values, the bound by the cap, and the choice within 1 ulp. -/
theorem trigFixedValues : Obligations.TrigFixedValues := by
  intro c
  refine ⟨sin64_zero c, asin64_zero c, asin64_one c, asin64_neg_one c, fun x hx => ?_,
    fun x neg m e h hm => ⟨?_, fun hx => ?_⟩⟩
  · obtain ⟨hfin, hle⟩ := sin64_bounded c hx
    exact ⟨hfin, abs_le.mp hle⟩
  · have hchosen := chosenResult_chooseWithinOneUlp c (sinEnclosure_bounded h hm) (cap := f64One) (by decide)
      (by rw [f64Rat_one]; exact zero_le_one) x
    rw [f64Rat_one] at hchosen
    simpa only [sin64, h, if_neg hm] using hchosen
  · refine ⟨(asin64_bounded c (by rw [f64Finite, h]) hx.le).1, ?_⟩
    rw [asin64_of_abs_lt_one c h hm hx]
    exact chosenResult_chooseWithinOneUlp c (asinEnclosure_bounded h hm hx) (by decide)
      (by rw [f64Rat_halfPi]; positivity) x

end Sys2Proof.Proofs
end

section
/-! PROOFS. RENDER (48_render.md R380): its checks in their order and the job they leave as one equation, the
command's end, and O55. -/

namespace Sys2Proof.Proofs

open Sys2Proof.Machine

theorem require_bind {α : Type} (c : Bool) (e : ErrCode) (f : Unit → Except ErrCode α) :
    (require c e >>= f) = if c then f () else .error e := by
  cases c <;> rfl

theorem operand_bind {α : Type} (r : Reg) (f : Nat → Except ErrCode α) :
    (operand r >>= f) = if r.written then f r.value.toNat else .error .uninit := by
  cases h : r.written <;> simp [operand, h]

theorem operandBits_bind {α : Type} (r : Reg) (f : Word → Except ErrCode α) :
    (operandBits r >>= f) = if r.written then f r.value else .error .uninit := by
  cases h : r.written <;> simp [operandBits, h]

theorem callsignOf_bind {α : Type} (std : Std) (f : Frame) (g : Bool → Except ErrCode α) :
    (callsignOf std f >>= g) = if FrameUndecodable std f then .error .format else g (frameCs std f) := by
  rw [callsignOf_eq]
  split <;> rfl

/-- The model's carrier list is the claims'. -/
theorem allowedFreq_eq_carrierList (p : Params) (std : Std) : allowedFreq p std = carrierList p std := by
  cases std <;> rfl

/-- The job of a RENDER whose checks pass: the frame and the configuration registers. -/
def renderJobOf (s : State) : RenderJob where
  std := s.frameTag.std
  frame := s.frame
  cs := frameCs s.frameTag.std s.frame
  rate := s.rate.value.toNat
  freq := s.freq.value.toNat
  shape := s.shape.value.toNat
  depth := s.depth.value
  startSec := s.startSec.value.toNat

/-- R380's checks in their order: the six CONFIG checks are one condition. -/
theorem renderJob_eq (s : State) :
    renderJob s =
      if OperandsWritten .render s then
        if s.frameTag.present then
          if RenderConfigLegal s then
            if FrameUndecodable s.frameTag.std s.frame then .error .format else .ok (renderJobOf s)
          else .error .config
        else .error .noframe
      else .error .uninit := by
  simp only [renderJob, requireFrame, operand_bind, operandBits_bind, require_bind, callsignOf_bind,
    allowedFreq_eq_carrierList, rateLegal, shapeLegal, startSecLegal, List.contains_iff_mem, decide_eq_true_eq]
  simp [OperandsWritten, operandsRead, RenderConfigLegal, renderCount, ite_and, renderJobOf, pure, Except.pure]

/-- The state a RENDER of `job` ends in (48_render.md R380, R381). -/
def rendered (s : State) (job : RenderJob) : State :=
  let n := renderCount job.rate job.startSec
  { s.succeeded (toWord n) (toWord (2 * n)) with pcm := renderPcm s.params job s.pcm, pcmLen := toWord (2 * n) }

@[simp] theorem rendered_pcm (s : State) (job : RenderJob) : (rendered s job).pcm = renderPcm s.params job s.pcm := rfl

theorem exec_render (s : State) :
    exec .render s =
      if OperandsWritten .render s then
        if s.frameTag.present then
          if RenderConfigLegal s then
            if FrameUndecodable s.frameTag.std s.frame then .next (s.failed .format)
            else .next (rendered s (renderJobOf s))
          else .next (s.failed .config)
        else .next (s.failed .noframe)
      else .next (s.failed .uninit) := by
  rw [exec, execRender, renderJob_eq]
  split_ifs <;> rfl

/-- Settles O55: RENDER's checks in their order. -/
theorem renderErrors : Obligations.RenderErrors := by
  intro s
  refine ⟨fun hw => by rw [exec_render, if_neg hw], fun hw hp => ?_, fun hw hp => ?_⟩
  · rw [exec_render, if_pos hw, if_neg (by simp [hp])]
  · rw [exec_render, if_pos hw, if_pos hp]
    exact ⟨fun hillegal => if_neg hillegal, fun hlegal hbad => by rw [if_pos hlegal, if_pos hbad]⟩

/-- A RENDER whose checks pass has a legal configuration. -/
theorem renderJob_legal {s : State} {job : RenderJob} (h : renderJob s = .ok job) :
    RenderConfigLegal s ∧ job = renderJobOf s := by
  rw [renderJob_eq] at h
  split_ifs at h with hw hp hlegal hbad
  exact ⟨hlegal, (Except.ok.inj h).symm⟩

/-- A legal buffer has a sample, and its length fits PCM_LEN and the memory (48_render.md R380, R381). -/
theorem renderCount_bounds {s : State} (h : RenderConfigLegal s) :
    0 < renderCount s.rate.value.toNat s.startSec.value.toNat ∧
      2 * renderCount s.rate.value.toNat s.startSec.value.toNat < 2 ^ 64 ∧
      2 * renderCount s.rate.value.toNat s.startSec.value.toNat ≤ s.params.pcmBytes := by
  obtain ⟨hpos, hrate, -, -, -, hstart, hfit⟩ := h
  have hcount : s.rate.value.toNat * (60 - s.startSec.value.toNat) ≤ (2 ^ 32 - 1) * 60 :=
    Nat.mul_le_mul hrate (Nat.sub_le ..)
  exact ⟨Nat.mul_pos hpos (by omega), by rw [renderCount]; omega, hfit⟩

end Sys2Proof.Proofs
end

section
/-! PROOFS. The memory a RENDER leaves (48_render.md R380 to R383), byte by byte and as its loop of sample writes: O54
and O57. -/

namespace Sys2Proof.Proofs

open Sys2Proof.Machine

/-- Byte a of the buffer: the low byte of sample a div 2 at an even address, and its high byte at an odd one (R382). -/
def bufferByte (p : Params) (job : RenderJob) (a : Nat) : Byte :=
  (renderSample p job (a / 2)).extractLsb' (8 * (a % 2)) 8

/-- The two bytes of a 16-bit sample, at byte offset 2j. -/
theorem pcmByte_sampleCells (j : Nat) (v : BitVec 16) (a : Nat) :
    pcmByte (sampleCells (2 * j) v) a = if a / 2 = j then some (v.extractLsb' (8 * (a % 2)) 8) else none := by
  obtain ⟨k, rfl | rfl⟩ : ∃ k, a = 2 * k ∨ a = 2 * k + 1 := ⟨a / 2, by omega⟩
  · have hhigh : 2 * j + 1 ≠ 2 * k := by omega
    rcases eq_or_ne k j with rfl | hne
    · simp [sampleCells, pcmByte]
    · simp [sampleCells, pcmByte, hhigh, hne, hne.symm]
  · have hlow : 2 * j ≠ 2 * k + 1 := by omega
    rcases eq_or_ne k j with rfl | hne
    · simp [sampleCells, pcmByte, Nat.add_mod, Nat.mul_add_div]
    · simp [sampleCells, pcmByte, hlow, hne, hne.symm, Nat.mul_add_div]

theorem pcmByte_renderCells (p : Params) (job : RenderJob) (first count a : Nat) :
    pcmByte (renderCells p job first count) a =
      if first ≤ a / 2 ∧ a / 2 < first + count then some (bufferByte p job a) else none := by
  induction count generalizing first with
  | zero => rw [if_neg (by omega)]; rfl
  | succ n ih =>
    rw [renderCells, pcmByte_append, pcmByte_sampleCells, ih]
    by_cases hfirst : a / 2 = first
    · subst hfirst
      rw [if_pos rfl, Option.some_or, if_pos ⟨le_rfl, by omega⟩]
      rfl
    · rw [if_neg hfirst, Option.none_or]
      exact if_congr (by omega) rfl rfl

theorem pcmByte_filter_from (m : List Host.Cell) (k a : Nat) :
    pcmByte (m.filter fun c => decide (k ≤ c.1)) a = if k ≤ a then pcmByte m a else none := by
  induction m with
  | nil => simp [pcmByte]
  | cons c m ih =>
    obtain ⟨x, b⟩ := c
    rcases eq_or_ne x a with rfl | hne
    · by_cases hx : k ≤ x <;> simp [hx, pcmByte, ih]
    · by_cases hx : k ≤ x <;> simp [hx, pcmByte, hne, ih]

/-- The buffer, and the older bytes above it. -/
theorem pcmByte_renderPcm (p : Params) (job : RenderJob) (m : List Host.Cell) (a : Nat) :
    pcmByte (renderPcm p job m) a =
      if a / 2 < renderCount job.rate job.startSec then some (bufferByte p job a) else pcmByte m a := by
  rw [renderPcm, pcmByte_append, pcmByte_renderCells, pcmByte_filter_from]
  by_cases ha : a / 2 < renderCount job.rate job.startSec
  · rw [if_pos (by omega), if_pos ha]
    rfl
  · rw [if_neg (by omega), if_pos (by omega), if_neg ha, Option.none_or]

/-! The loop of R380. -/

theorem pcmByte_pcmPut (m : List Host.Cell) (k : Nat) (b : Byte) (a : Nat) :
    pcmByte (pcmPut m k b) a = if a = k then some b else pcmByte m a := by
  split_ifs with h
  · rw [h, pcmByte_pcmPut_self]
  · exact pcmByte_pcmPut_ne m b h

theorem pcmByte_pcmWrite16 (m : List Host.Cell) (j : Nat) (v : BitVec 16) (a : Nat) :
    pcmByte (pcmWrite16 m (2 * j) v) a = if a / 2 = j then some (v.extractLsb' (8 * (a % 2)) 8) else pcmByte m a := by
  have hcells : pcmByte (pcmWrite16 m (2 * j) v) a = (pcmByte (sampleCells (2 * j) v) a).or (pcmByte m a) := by
    simp only [pcmWrite16, sampleCells, List.foldl_cons, List.foldl_nil, pcmByte_pcmPut, pcmByte]
    rcases eq_or_ne a (2 * j) with rfl | hlow
    · simp
    · rcases eq_or_ne a (2 * j + 1) with rfl | hhigh
      · simp
      · simp [hlow, hhigh, hlow.symm, hhigh.symm]
  rw [hcells, pcmByte_sampleCells]
  split_ifs <;> rfl

/-- The memory after the first n sample writes of R380's loop. -/
def renderLoop (p : Params) (job : RenderJob) (m : List Host.Cell) (n : Nat) : List Host.Cell :=
  (List.range n).foldl (fun acc j => pcmWrite16 acc (2 * j) (renderSample p job j)) m

theorem renderLoop_succ (p : Params) (job : RenderJob) (m : List Host.Cell) (n : Nat) :
    renderLoop p job m (n + 1) = pcmWrite16 (renderLoop p job m n) (2 * n) (renderSample p job n) := by
  simp [renderLoop, List.range_succ]

theorem wf_renderLoop (p : Params) (job : RenderJob) {m : List Host.Cell} (hm : Memory.wf m = true) (n : Nat) :
    Memory.wf (renderLoop p job m n) = true := by
  induction n with
  | zero => exact hm
  | succ n ih =>
    rw [renderLoop_succ]
    exact wf_pcmWrite16 ih _ _

theorem pcmByte_renderLoop (p : Params) (job : RenderJob) (m : List Host.Cell) (n a : Nat) :
    pcmByte (renderLoop p job m n) a = if a / 2 < n then some (bufferByte p job a) else pcmByte m a := by
  induction n with
  | zero => rfl
  | succ n ih =>
    rw [renderLoop_succ, pcmByte_pcmWrite16, ih]
    rcases lt_trichotomy (a / 2) n with h | h | h
    · rw [if_neg h.ne, if_pos h, if_pos (by omega)]
    · rw [if_pos h, if_pos (by omega), ← h]
      rfl
    · rw [if_neg h.ne', if_neg h.not_gt, if_neg (by omega)]

/-- In a canonical memory the lowest listed address is the lowest written one. -/
theorem pcmByte_of_lt_head {k : Nat} {b : Byte} {m : List Host.Cell} (hm : Memory.wf ((k, b) :: m) = true) {a : Nat}
    (ha : a < k) : pcmByte ((k, b) :: m) a = none := by
  obtain ⟨hlow, -⟩ := (wf_cons _ _).mp hm
  refine pcmByte_of_all_lt fun d hd => ?_
  rcases List.mem_cons.mp hd with rfl | hd
  · exact ha
  · exact ha.trans (hlow d hd)

/-- A canonical memory is determined by its bytes. -/
theorem eq_of_wf_of_pcmByte_eq {m m' : List Host.Cell} (hm : Memory.wf m = true) (hm' : Memory.wf m' = true)
    (h : ∀ a, pcmByte m a = pcmByte m' a) : m = m' := by
  induction m generalizing m' with
  | nil =>
    cases m' with
    | nil => rfl
    | cons d m' => simpa [pcmByte] using h d.1
  | cons c m ih =>
    cases m' with
    | nil => simpa [pcmByte] using h c.1
    | cons d m' =>
      obtain ⟨k, b⟩ := c
      obtain ⟨k', b'⟩ := d
      obtain rfl : k = k' := by
        rcases lt_trichotomy k k' with hlt | heq | hgt
        · have hk := h k
          rw [pcmByte_of_lt_head hm' hlt] at hk
          simp [pcmByte] at hk
        · exact heq
        · have hk := h k'
          rw [pcmByte_of_lt_head hm hgt] at hk
          simp [pcmByte] at hk
      obtain rfl : b = b' := by simpa [pcmByte] using h k
      obtain ⟨hlow, hm⟩ := (wf_cons _ _).mp hm
      obtain ⟨hlow', hm'⟩ := (wf_cons _ _).mp hm'
      rw [ih hm hm' fun a => ?_]
      rcases eq_or_ne k a with rfl | hne
      · rw [pcmByte_of_all_lt hlow, pcmByte_of_all_lt hlow']
      · simpa [pcmByte, hne] using h a

/-- Settles O57: both memories are canonical and have the same bytes. -/
theorem renderIsItsLoopOfWrites : Obligations.RenderIsItsLoopOfWrites := fun p job m hm =>
  eq_of_wf_of_pcmByte_eq (wf_renderPcm p job hm) (wf_renderLoop p job hm _) fun a =>
    (pcmByte_renderPcm p job m a).trans (pcmByte_renderLoop p job m _ a).symm

/-! RENDER's result. -/

theorem sampleIndex_eq_runningIndex (p : Params) (job : RenderJob) (j : Nat) :
    sampleIndex p job j = runningIndex p job.rate job.startSec j := by
  rw [sampleIndex, runningIndex]
  cases p.indexOrigin <;> rfl

/-- A buffer's second is one of the minute's. -/
theorem second_le {rate startSec j : Nat} (hj : j < rate * (60 - startSec)) : startSec + j / rate ≤ 59 :=
  Nat.le_of_lt_succ (Nat.add_lt_of_lt_sub' (Nat.div_lt_of_lt_mul hj))

/-- The model's sample is the claims' (R382). -/
theorem renderSample_eq_bufferSample (s : State) {j : Nat}
    (hj : j < renderCount s.rate.value.toNat s.startSec.value.toNat) :
    renderSample s.params (renderJobOf s) j = bufferSample s j := by
  rw [renderSample, sampleIndex_eq_runningIndex, shapeSample_eq_sampleValue]
  simp only [renderJobOf, amplitude_eq_envelopeAmplitude _ _ _ _ _ _ (second_le hj)]
  rfl

theorem bufferByte_even (p : Params) (job : RenderJob) (j : Nat) :
    bufferByte p job (2 * j) = (renderSample p job j).extractLsb' 0 8 := by
  simp [bufferByte]

theorem bufferByte_odd (p : Params) (job : RenderJob) (j : Nat) :
    bufferByte p job (2 * j + 1) = (renderSample p job j).extractLsb' 8 8 := by
  simp [bufferByte, Nat.mul_add_div]

/-- The two bytes of sample j. -/
theorem pcmByte_renderPcm_sample (p : Params) (job : RenderJob) (m : List Host.Cell) {j : Nat}
    (hj : j < renderCount job.rate job.startSec) :
    pcmByte (renderPcm p job m) (2 * j) = some ((renderSample p job j).extractLsb' 0 8) ∧
      pcmByte (renderPcm p job m) (2 * j + 1) = some ((renderSample p job j).extractLsb' 8 8) := by
  rw [pcmByte_renderPcm, if_pos (by omega), pcmByte_renderPcm, if_pos (by omega), bufferByte_even, bufferByte_odd]
  exact ⟨rfl, rfl⟩

/-- Settles O54: the samples below 2N, and the older bytes from there on. -/
theorem renderResult : Obligations.RenderResult := by
  rintro s _ hw hp hlegal hgood rfl
  refine ⟨renderPcm s.params (renderJobOf s) s.pcm, ?_, fun j hj => ?_, fun a ha => ?_⟩
  · rw [exec_render, if_pos hw, if_pos hp, if_pos hlegal, if_neg hgood]
    rfl
  · rw [← renderSample_eq_bufferSample s hj]
    exact pcmByte_renderPcm_sample s.params (renderJobOf s) s.pcm hj
  · rw [pcmByte_renderPcm, if_neg]
    simp only [renderJobOf, renderCount]
    omega

end Sys2Proof.Proofs
end

section
/-! PROOFS. What one step can do (60_exceptions.md R428, 70_reset_and_hazards.md R440, R445), said once: the next events
and their effects on the state that remains. -/

namespace Sys2Proof.Proofs

open Sys2Proof.Machine

/-- What a step that is no reset can do to the state whose event it took. -/
def StepEffect (s t : State) : Prop :=
  t = s ∨ t = s.dropWrite ∨ (∃ r v, t = writeRegister r v s) ∨ (∃ v, t = s.setReadData v) ∨ (∃ e, t = s.failed e) ∨
    ∃ i, exec i s = .next t

theorem hostAccess_effect {op : HostOp} {s t : State} (h : hostAccess op s = .next t) : StepEffect s t := by
  cases op with
  | writeReg offset bits v =>
    rcases hostWriteReg_cases offset bits v s with ⟨-, hw⟩ | ⟨r, -, ⟨-, -, hw⟩ | ⟨-, hw⟩⟩ <;> cases hw.symm.trans h
    · exact .inr (.inl rfl)
    · exact .inr (.inr (.inl ⟨r, v, rfl⟩))
  | readReg offset bits =>
    rcases hostReadReg_cases offset bits s with ⟨-, hr⟩ | ⟨r, -, ⟨-, hr⟩ | ⟨v, -, hr⟩⟩ <;> cases hr.symm.trans h
    · exact .inr (.inr (.inr (.inl ⟨_, rfl⟩)))
    · exact .inr (.inr (.inr (.inl ⟨v, rfl⟩)))
  | readPcm addr n seesNew =>
    rcases hostReadPcm_cases addr n seesNew s with hr | ⟨a, hr⟩ | ⟨v, hr⟩ <;> cases hr.symm.trans h
    exact .inr (.inr (.inr (.inl ⟨v, rfl⟩)))

theorem runCommand_of_ok {s : State} {i : Instr} (h : decode s.cmd.value = .ok i) : runCommand s = exec i s := by
  simp only [runCommand, h]

theorem runCommand_of_error {s : State} {e : DecodeReject} (h : decode s.cmd.value = .error e) :
    runCommand s = .next (s.failed .illegal) := by
  simp only [runCommand, h]
  rfl

/-- The end of a running command with a legal word. -/
theorem endRunning_of_ok {s : State} {i : Instr} (hbusy : s.status.busy = true) (h : decode s.cmd.value = .ok i) :
    endRunning s = exec i s :=
  (if_pos hbusy).trans (runCommand_of_ok h)

/-- The end of a running command with an illegal word (30_encoding.md R108). -/
theorem endRunning_of_error {s : State} {e : DecodeReject} (hbusy : s.status.busy = true)
    (h : decode s.cmd.value = .error e) : endRunning s = .next (s.failed .illegal) :=
  (if_pos hbusy).trans (runCommand_of_error h)

theorem endRunning_of_idle {s : State} (h : s.status.busy = false) : endRunning s = .next s := if_neg (by simp [h])

theorem endRunning_effect {s t : State} (h : endRunning s = .next t) : StepEffect s t := by
  cases hbusy : s.status.busy with
  | false =>
    rw [endRunning_of_idle hbusy] at h
    cases h
    exact .inl rfl
  | true =>
    cases hdecode : decode s.cmd.value with
    | error e =>
      rw [endRunning_of_error hbusy hdecode] at h
      cases h
      exact .inr (.inr (.inr (.inr (.inl ⟨.illegal, rfl⟩))))
    | ok i =>
      rw [endRunning_of_ok hbusy hdecode] at h
      exact .inr (.inr (.inr (.inr (.inr ⟨i, h⟩))))

/-- A step is a reset, or has one of the effects on the state less the event it took. -/
theorem step_cases {s t : State} (h : step s = .next t) :
    (∃ rest, s.events = .reset :: rest ∧ t = (s.setEvents rest).resetBlock) ∨ ∃ es, StepEffect (s.setEvents es) t := by
  cases hevents : s.events with
  | nil =>
    rw [step_of_no_event hevents] at h
    exact .inr ⟨s.events, endRunning_effect h⟩
  | cons event rest =>
    cases event with
    | host op =>
      rw [step_of_host hevents] at h
      exact .inr ⟨rest, hostAccess_effect h⟩
    | commandEnd =>
      rw [step_of_commandEnd hevents] at h
      exact .inr ⟨rest, endRunning_effect h⟩
    | reset =>
      rw [step_of_reset hevents] at h
      cases h
      exact .inl ⟨rest, rfl, rfl⟩

end Sys2Proof.Proofs
end

section
/-! PROOFS. The block's invariant (10_state.md R35, R45, R46; 48_render.md R383): it holds after reset, and each effect of
a step keeps it: O58 and O59. -/

namespace Sys2Proof.Proofs

open Sys2Proof.Machine

/-! The width of a stored frame (10_state.md R46). -/

/-- FRAME[127:120] is 0, and FRAME[127:60] is 0 in a frame of a 60-bit standard. -/
def FrameFits (std : Std) (f : Frame) : Prop := f.toNat < 2 ^ 120 ∧ (std ≠ .bpc → f.toNat < 2 ^ 60)

theorem toNat_lt_of_getLsbD {f : Frame} {n : Nat} (h : ∀ i, n ≤ i → f.getLsbD i = false) : f.toNat < 2 ^ n :=
  Nat.lt_pow_two_of_testBit _ h

theorem frameFits_of_sixty {f : Frame} (std : Std) (h : ∀ i, 60 ≤ i → f.getLsbD i = false) : FrameFits std f :=
  ⟨(toNat_lt_of_getLsbD h).trans (by decide), fun _ => toNat_lt_of_getLsbD h⟩

theorem frameFits_bpc {f : Frame} (h : f.toNat < 2 ^ 120) : FrameFits .bpc f := ⟨h, fun hne => absurd rfl hne⟩

/-- No write of R201 touches the bits above the last field. -/
theorem getLsbD_encodeDcf77_of_above (y mo d h m : Nat) (t1 : Word) {i : Nat} (hi : 59 ≤ i) :
    (encodeDcf77 y mo d h m t1).getLsbD i = false := by
  simp (disch := omega) only [encodeDcf77, putParity, putBit, getLsbD_putLSB_of_outside, BitVec.ofNat_eq_ofNat,
    BitVec.getLsbD_zero]

/-- Every encoded record fits, whatever its time inputs. -/
theorem frameFits_encodeRecord (std : Std) (y mo d h m : Nat) (t1 : Word) :
    FrameFits std (encodeRecord std y mo d h m t1) := by
  cases std with
  | dcf77 => exact frameFits_of_sixty _ fun i hi => getLsbD_encodeDcf77_of_above _ _ _ _ _ _ (by omega)
  | wwvb => exact frameFits_of_sixty _ fun i hi => getLsbD_encodeWwvb_of_outside_fields _ _ _ _ _ _ (.inr (by omega))
  | jjy => exact frameFits_of_sixty _ fun i hi => getLsbD_encodeJjy_of_outside_fields (.inl (.inr (by omega)))
  | bpc =>
    exact frameFits_bpc (toNat_lt_of_getLsbD fun i hi =>
      getLsbD_encodeBpc_of_outside_fields _ _ _ _ _ t1 fun _ _ => by omega)

theorem frameFits_loadFrame60 (std : Std) (msb : Bool) {raw : Word} (h : raw.toNat < 2 ^ 60) :
    FrameFits std (loadFrame60 msb raw.toNat) :=
  frameFits_of_sixty std fun i hi => by simp [getLsbD_loadFrame60 msb h, not_lt.mpr hi]

theorem frameFits_append {hi : Word} (lo : Word) (h : hi.toNat < 2 ^ 56) : FrameFits .bpc (hi ++ lo) := by
  refine frameFits_bpc ?_
  have := lo.isLt
  rw [BitVec.toNat_append, ← Nat.shiftLeft_add_eq_or_of_lt this, Nat.shiftLeft_eq]
  omega

/-- The command failed, or stored a record of its standard's width. -/
def StoresFrame (s t : State) : Prop := (∃ e, t = s.failed e) ∨ ∃ std f, FrameFits std f ∧ t = s.recorded std f

theorem recEncode_storesFrame {std : Std} {s t : State} (h : exec (recEncodeInstr std) s = .next t) :
    StoresFrame s t := by
  rw [exec_recEncode] at h
  split_ifs at h <;> cases h
  · exact .inr ⟨std, _, frameFits_encodeRecord .., rfl⟩
  all_goals exact .inl ⟨_, rfl⟩

theorem recLoad60_storesFrame {std : Std} {msb : Bool} {s t : State} (h : recLoad60 std msb s = .next t) :
    StoresFrame s t := by
  rw [recLoad60_eq] at h
  split_ifs at h with hw hlt <;> cases h
  · exact .inr ⟨std, _, frameFits_loadFrame60 std msb hlt, rfl⟩
  all_goals exact .inl ⟨_, rfl⟩

theorem recLoadBpc_storesFrame {msb : Bool} {s t : State} (h : exec (.recLoadBpc msb) s = .next t) :
    StoresFrame s t := by
  rw [exec_recLoadBpc] at h
  split_ifs at h with hw hmsb hlt <;> cases h
  · exact .inl ⟨_, rfl⟩
  · exact .inr ⟨.bpc, _, frameFits_append _ hlt, rfl⟩
  all_goals exact .inl ⟨_, rfl⟩

theorem exec_storesFrame {i : Instr} {s t : State} (hwrites : writesFrame i = true) (h : exec i s = .next t) :
    StoresFrame s t := by
  cases i with
  | recEncodeDcf77 => exact recEncode_storesFrame (std := .dcf77) h
  | recEncodeWwvb => exact recEncode_storesFrame (std := .wwvb) h
  | recEncodeJjy => exact recEncode_storesFrame (std := .jjy) h
  | recEncodeBpc => exact recEncode_storesFrame (std := .bpc) h
  | recLoadDcf77 msb => exact recLoad60_storesFrame (std := .dcf77) h
  | recLoadWwvb msb => exact recLoad60_storesFrame (std := .wwvb) h
  | recLoadJjy msb => exact recLoad60_storesFrame (std := .jjy) h
  | recLoadBpc msb => exact recLoadBpc_storesFrame h
  | _ => cases hwrites

/-! The invariant under each effect. -/

/-- Where the memory and the frame are kept, the invariant asks of the rest ERR and the results' flags alone. -/
theorem inv_of_kept {s t : State} (h : s.Inv) (hmem : t.pcm = s.pcm ∧ t.pcmLen = s.pcmLen ∧ t.params = s.params)
    (hframe : FrameKept s t) (hflags : t.frameLoWritten = s.frameLoWritten ∧ t.frameHiWritten = s.frameHiWritten)
    (herr : t.status.err = t.status.ecode.isSome) (hresults : t.res0.written = t.res1.written) : t.Inv := by
  obtain ⟨hpcm, hlen, hparams⟩ := hmem
  obtain ⟨hf, htag⟩ := hframe
  obtain ⟨hlo, hhi⟩ := hflags
  refine ⟨?_, ?_, ?_, herr, ?_, ?_, ?_, ?_, hresults⟩
  · rw [hpcm]
    exact h.pcmWf
  · rw [hpcm, hparams]
    exact h.pcmWithin
  · rw [hpcm, hlen]
    exact h.bufferWritten
  · rw [hf]
    exact h.frameTop
  · rw [hf, htag]
    exact h.frameSixty
  · rw [hlo, htag]
    exact h.frameLoFlag
  · rw [hhi, htag]
    exact h.frameHiFlag

theorem inv_writeRegister {s : State} (h : s.Inv) (r : RegName) (v : Word) : (writeRegister r v s).Inv := by
  cases r <;> exact inv_of_kept h ⟨rfl, rfl, rfl⟩ ⟨rfl, rfl⟩ ⟨rfl, rfl⟩ h.errIffEcode h.resultFlags

theorem inv_failed {s : State} (h : s.Inv) (e : ErrCode) : (s.failed e).Inv :=
  inv_of_kept h ⟨rfl, rfl, rfl⟩ ⟨rfl, rfl⟩ ⟨rfl, rfl⟩ rfl h.resultFlags

theorem inv_recorded {s : State} (h : s.Inv) {std : Std} {f : Frame} (hf : FrameFits std f) :
    (s.recorded std f).Inv where
  pcmWf := h.pcmWf
  pcmWithin := h.pcmWithin
  bufferWritten := h.bufferWritten
  errIffEcode := rfl
  frameTop := hf.1
  frameSixty := fun _ => hf.2
  frameLoFlag := rfl
  frameHiFlag := rfl
  resultFlags := rfl

theorem within_renderPcm (p : Params) (job : RenderJob) {n : Nat} {m : List Host.Cell} (hm : Memory.within n m = true)
    (hfit : 2 * renderCount job.rate job.startSec ≤ n) : Memory.within n (renderPcm p job m) = true := by
  refine (within_iff _ _).mpr fun c hc => ?_
  rcases List.mem_append.mp hc with hc | hc
  · have := mem_renderCells hc
    omega
  · exact (within_iff _ _).mp hm c (List.mem_filter.mp hc).1

theorem inv_rendered {s : State} (h : s.Inv) (hlegal : RenderConfigLegal s) : (rendered s (renderJobOf s)).Inv where
  pcmWf := wf_renderPcm _ _ h.pcmWf
  pcmWithin := within_renderPcm _ _ h.pcmWithin (renderCount_bounds hlegal).2.2
  bufferWritten := fun a ha => by
    change a < (toWord (2 * renderCount s.rate.value.toNat s.startSec.value.toNat)).toNat at ha
    rw [toNat_toWord (renderCount_bounds hlegal).2.1] at ha
    have hin : a / 2 < renderCount s.rate.value.toNat s.startSec.value.toNat := by omega
    exact Option.isSome_iff_exists.mpr ⟨_, (pcmByte_renderPcm ..).trans (if_pos hin)⟩
  errIffEcode := rfl
  frameTop := h.frameTop
  frameSixty := h.frameSixty
  frameLoFlag := h.frameLoFlag
  frameHiFlag := h.frameHiFlag
  resultFlags := rfl

theorem exec_keeps_inv {i : Instr} {s t : State} (hinv : s.Inv) (h : exec i s = .next t) : t.Inv := by
  rcases exec_cases h with ⟨e, rfl⟩ | ⟨-, rfl⟩ | ⟨-, -, -, r0, r1, rfl⟩ | ⟨-, hwrites, -, -⟩ | ⟨-, job, hjob, rfl⟩
  · exact inv_failed hinv e
  · exact inv_of_kept hinv ⟨rfl, rfl, rfl⟩ ⟨rfl, rfl⟩ ⟨rfl, rfl⟩ rfl hinv.resultFlags
  · exact inv_of_kept hinv ⟨rfl, rfl, rfl⟩ ⟨rfl, rfl⟩ ⟨rfl, rfl⟩ rfl rfl
  · rcases exec_storesFrame hwrites h with ⟨e, rfl⟩ | ⟨std, f, hf, rfl⟩
    · exact inv_failed hinv e
    · exact inv_recorded hinv hf
  · obtain ⟨hlegal, rfl⟩ := renderJob_legal hjob
    exact inv_rendered hinv hlegal

theorem stepEffect_keeps_inv {s t : State} (hinv : s.Inv) (h : StepEffect s t) : t.Inv := by
  rcases h with rfl | rfl | ⟨r, v, rfl⟩ | ⟨v, rfl⟩ | ⟨e, rfl⟩ | ⟨i, hexec⟩
  · exact hinv
  · exact inv_of_kept hinv ⟨rfl, rfl, rfl⟩ ⟨rfl, rfl⟩ ⟨rfl, rfl⟩ hinv.errIffEcode hinv.resultFlags
  · exact inv_writeRegister hinv r v
  · exact inv_of_kept hinv ⟨rfl, rfl, rfl⟩ ⟨rfl, rfl⟩ ⟨rfl, rfl⟩ hinv.errIffEcode hinv.resultFlags
  · exact inv_failed hinv e
  · exact exec_keeps_inv hinv hexec

/-- Reset leaves no memory and no frame, whatever the parameters. -/
theorem inv_resetBlock (s : State) : s.resetBlock.Inv where
  pcmWf := rfl
  pcmWithin := rfl
  bufferWritten := fun _ ha => absurd ha (Nat.not_lt_zero _)
  errIffEcode := rfl
  frameTop := Nat.two_pow_pos 120
  frameSixty := nofun
  frameLoFlag := rfl
  frameHiFlag := rfl
  resultFlags := rfl

/-- Settles O58: no memory, no frame, no error and no flag set. -/
theorem resetMeetsInvariant : Obligations.ResetMeetsInvariant :=
  inv_of_kept (inv_resetBlock State.reset) ⟨rfl, rfl, rfl⟩ ⟨rfl, rfl⟩ ⟨rfl, rfl⟩ rfl rfl

/-- Settles O59: a reset leaves the reset state's fields, and every other effect keeps the invariant. -/
theorem stepKeepsInvariant : Obligations.StepKeepsInvariant := by
  intro s t hinv hstep
  rcases step_cases hstep with ⟨rest, -, rfl⟩ | ⟨es, heffect⟩
  · exact inv_resetBlock _
  · refine stepEffect_keeps_inv ?_ heffect
    exact inv_of_kept hinv ⟨rfl, rfl, rfl⟩ ⟨rfl, rfl⟩ ⟨rfl, rfl⟩ hinv.errIffEcode hinv.resultFlags

end Sys2Proof.Proofs
end

section
/-! PROOFS. Command words (30_encoding.md R100 to R110): the decoder as one condition on the word's fields, what a step
does with a decoded word, and O13 to O16. -/

namespace Sys2Proof.Proofs

open Sys2Proof.Machine

/-! The fields of a word. -/

/-- The OPC value of an opcode (30_encoding.md R107). -/
def opcodeByte : Opcode → BitVec 8
  | .nop => 0x00
  | .bcdEnc => 0x01
  | .bcdDec => 0x02
  | .bcd5Enc => 0x03
  | .bcd5Dec => 0x04
  | .reverse => 0x05
  | .parity => 0x06
  | .bits => 0x07
  | .setbits => 0x08
  | .recEncode => 0x10
  | .recLoad => 0x11
  | .recRaw => 0x12
  | .recField => 0x13
  | .recValid => 0x14
  | .recSym => 0x15
  | .schedule => 0x20
  | .envelope => 0x21
  | .sample => 0x22
  | .render => 0x30

theorem opcodeByte_of_opcodeOfByte {b : BitVec 8} {o : Opcode} (h : opcodeOfByte b = some o) : opcodeByte o = b :=
  (by decide : ∀ b : BitVec 8, ∀ o ∈ opcodeOfByte b, opcodeByte o = b) b o h

theorem opcodeOfByte_eq_none_iff (b : BitVec 8) : opcodeOfByte b = none ↔ b.toNat ∉ legalOpcodes := by
  revert b
  decide

theorem stdBits_of_stdOfCode {c : BitVec 3} {std : Std} (h : stdOfCode c = some std) : stdBits std = c :=
  (by decide : ∀ c : BitVec 3, ∀ std ∈ stdOfCode c, stdBits std = c) c std h

theorem stdOfCode_eq_none_iff (c : BitVec 3) : stdOfCode c = none ↔ 4 ≤ c.toNat := by
  revert c
  decide

/-- The reserved bits 15:12 and 63:24 as R108 lists them. -/
theorem reservedOf_eq_zero_iff (w : Word) :
    reservedOf w = 0 ↔ ¬∃ i, ((12 ≤ i ∧ i ≤ 15) ∨ (24 ≤ i ∧ i ≤ 63)) ∧ w.getLsbD i = true := by
  have hmask : ∀ i, i < 64 →
      ((0xFFFFFFFFFF00F000 : Word).getLsbD i = true ↔ (12 ≤ i ∧ i ≤ 15) ∨ (24 ≤ i ∧ i ≤ 63)) := by
    decide
  rw [reservedOf, and_eq_zero_iff]
  constructor
  · rintro h ⟨i, hi, hbit⟩
    have h64 : i < 64 := by omega
    simp [h i h64 ((hmask i h64).mpr hi)] at hbit
  · intro h i h64 hi
    exact Bool.eq_false_of_not_eq_true fun hbit => h ⟨i, (hmask i h64).mp hi, hbit⟩

/-- A field of n bits, put at bit p of a word. -/
theorem getLsbD_placed {n : Nat} (x : BitVec n) {p : Nat} (hfit : p + n ≤ 64) (i : Nat) :
    (x.setWidth 64 <<< p).getLsbD i = (decide (p ≤ i) && x.getLsbD (i - p)) := by
  rw [BitVec.getLsbD_shiftLeft, BitVec.getLsbD_setWidth]
  by_cases hp : p ≤ i
  · by_cases hi : i < 64
    · simp [hp, hi, show i - p < 64 by omega]
    · simp [hi, BitVec.getLsbD_of_ge x (i - p) (by omega)]
  · simp [hp, not_le.mp hp]

/-- A field of a word, put back at its place: the word's own bits there. -/
theorem getLsbD_field_in_place (w : Word) {lo n : Nat} (hfit : lo + n ≤ 64) (i : Nat) :
    ((w.extractLsb' lo n).setWidth 64 <<< lo).getLsbD i = (decide (lo ≤ i ∧ i < lo + n) && w.getLsbD i) := by
  rw [getLsbD_placed _ hfit, BitVec.getLsbD_extractLsb']
  by_cases hlo : lo ≤ i
  · simp [hlo, show i - lo < n ↔ i < lo + n by omega]
  · simp [hlo]

theorem ofBool_msbOf (w : Word) : BitVec.ofBool (msbOf w) = w.extractLsb' 11 1 := by
  refine BitVec.eq_of_getLsbD_eq fun i hi => ?_
  obtain rfl : i = 0 := by omega
  simp [msbOf]

/-- A word with no reserved bit is its four fields (R100). -/
theorem commandWord_fields {w : Word} (h : reservedOf w = 0) :
    commandWord (opcOf w) (stdOf w) (msbOf w) (fieldOf w) = w := by
  rw [reservedOf_eq_zero_iff] at h
  refine BitVec.eq_of_getLsbD_eq fun i hi => ?_
  rw [commandWord, ofBool_msbOf, opcOf, stdOf, fieldOf,
    ← BitVec.shiftLeft_zero (BitVec.setWidth 64 (w.extractLsb' 0 8))]
  simp (disch := decide) only [BitVec.getLsbD_or, getLsbD_field_in_place, ← Bool.and_or_distrib_right, ← Bool.decide_or]
  by_cases hfield : (12 ≤ i ∧ i ≤ 15) ∨ (24 ≤ i ∧ i ≤ 63)
  · rw [Bool.eq_false_of_not_eq_true fun hbit => h ⟨i, hfield, hbit⟩, Bool.and_false]
  · rw [decide_eq_true (by omega), Bool.true_and]

/-! The decoder. -/

/-- The fields of w are legal for the opcode o, and STD names std (R102 to R105, R108). -/
structure LegalFields (w : Word) (o : Opcode) (std : Std) : Prop where
  reserved : reservedOf w = 0
  msb : opcodeTakesMsb o = false → msbOf w = false
  noField : opcodeTakesField o = false → fieldOf w = 0
  field : opcodeTakesField o = true → fieldOf w ≤ lastField
  stdCode : stdOfCode (stdOf w) = some std
  noStd : opcodeTakesStd o = false → std = .dcf77

/-- The decoder accepts exactly the words of an opcode with legal fields. -/
theorem decode_eq_ok_iff (w : Word) (i : Instr) :
    decode w = .ok i ↔
      ∃ o std, opcodeOfByte (opcOf w) = some o ∧ LegalFields w o std ∧ instrOf o std (msbOf w) (fieldOf w) = i := by
  constructor
  · intro h
    rw [decode] at h
    cases ho : opcodeOfByte (opcOf w) with
    | none => simp [ho] at h
    | some o =>
      cases hstd : stdOfCode (stdOf w) with
      | none =>
        simp only [ho, hstd] at h
        split_ifs at h
      | some std =>
        simp only [ho, hstd] at h
        split_ifs at h with hres hmsb hnoField hfield hnoStd
        exact ⟨o, std, rfl, ⟨not_not.mp hres, by simpa using hmsb, by simpa using hnoField, by simpa using hfield, hstd,
          by simpa using hnoStd⟩, Except.ok.inj h⟩
  · rintro ⟨o, std, ho, ⟨hres, hmsb, hnoField, hfield, hstd, hnoStd⟩, rfl⟩
    simp only [decode, ho, hstd]
    rw [if_neg (not_not.mpr hres), if_neg (by simpa using hmsb), if_neg (by simpa using hnoField),
      if_neg (by simpa using hfield), if_neg (by simpa using hnoStd)]

/-! Decode and encode (R107, R109). -/

theorem wellFormed_instrOf {w : Word} {o : Opcode} {std : Std} (h : LegalFields w o std) :
    WellFormed (instrOf o std (msbOf w) (fieldOf w)) := by
  cases o with
  | recField => exact decide_eq_true (h.field rfl)
  | recEncode | recLoad => cases std <;> rfl
  | _ => rfl

/-- A field the opcode does not take is 0 in the command's word, and in a legal word. -/
theorem encode_instrOf {w : Word} {o : Opcode} {std : Std} (h : LegalFields w o std) :
    encode (instrOf o std (msbOf w) (fieldOf w)) = commandWord (opcodeByte o) (stdBits std) (msbOf w) (fieldOf w) := by
  obtain ⟨-, hmsb, hnoField, -, -, hnoStd⟩ := h
  cases o with
  | recEncode => cases std <;> rw [hmsb rfl, hnoField rfl] <;> rfl
  | recLoad => cases std <;> rw [hnoField rfl] <;> rfl
  | setbits | recRaw => rw [hnoField rfl, hnoStd rfl]; rfl
  | recField => rw [hmsb rfl, hnoStd rfl]; rfl
  | _ => rw [hmsb rfl, hnoField rfl, hnoStd rfl]; rfl

theorem decode_encode {i : Instr} (h : WellFormed i) : decode (encode i) = .ok i := by
  cases i with
  | recField f =>
    revert f
    decide
  | setbits msb | recLoadDcf77 msb | recLoadWwvb msb | recLoadJjy msb | recLoadBpc msb | recRaw msb =>
    cases msb <;> decide
  | _ => decide

theorem encode_of_decode {w : Word} {i : Instr} (h : decode w = .ok i) : encode i = w := by
  obtain ⟨o, std, ho, hlegal, rfl⟩ := (decode_eq_ok_iff w i).mp h
  rw [encode_instrOf hlegal, opcodeByte_of_opcodeOfByte ho, stdBits_of_stdOfCode hlegal.stdCode,
    commandWord_fields hlegal.reserved]

theorem wellFormed_of_decode {w : Word} {i : Instr} (h : decode w = .ok i) : WellFormed i := by
  obtain ⟨o, std, -, hlegal, rfl⟩ := (decode_eq_ok_iff w i).mp h
  exact wellFormed_instrOf hlegal

/-- Settles O15: a legal word is its four fields, and the fields a command does not take are 0. -/
theorem decodeEncodeAgree : Obligations.DecodeEncodeAgree :=
  ⟨fun _ => decode_encode, fun _ _ h => ⟨wellFormed_of_decode h, encode_of_decode h⟩⟩

/-- Settles O16: each word decoded. -/
theorem sampleWordsDecode : Obligations.SampleWordsDecode := by
  unfold Obligations.SampleWordsDecode
  decide

/-! Illegal words (R108). -/

theorem opcodeTakesStd_iff (o : Opcode) :
    opcodeTakesStd o = true ↔ (opcodeByte o).toNat = 0x10 ∨ (opcodeByte o).toNat = 0x11 := by
  cases o <;> decide

theorem opcodeTakesMsb_iff (o : Opcode) :
    opcodeTakesMsb o = true ↔
      (opcodeByte o).toNat = 0x08 ∨ (opcodeByte o).toNat = 0x11 ∨ (opcodeByte o).toNat = 0x12 := by
  cases o <;> decide

theorem opcodeTakesField_iff (o : Opcode) : opcodeTakesField o = true ↔ (opcodeByte o).toNat = 0x13 := by
  cases o <;> decide

theorem toNat_opcOf (w : Word) : (opcOf w).toNat = w.toNat % 256 := by
  have hlow := fieldAt_eq_extractLsb' w 0 8
  rw [fieldAt, pow_zero, Nat.div_one] at hlow
  exact hlow.symm

/-- R108's items after the first, each by what the opcode takes. -/
theorem illegalWord_iff {w : Word} {o : Opcode} (ho : opcodeOfByte (opcOf w) = some o) :
    IllegalWord w ↔
      reservedOf w ≠ 0 ∨ (¬opcodeTakesStd o = true ∧ stdOf w ≠ 0) ∨ (opcodeTakesStd o = true ∧ 4 ≤ (stdOf w).toNat) ∨
        (¬opcodeTakesMsb o = true ∧ msbOf w = true) ∨ (¬opcodeTakesField o = true ∧ fieldOf w ≠ 0) ∨
        (opcodeTakesField o = true ∧ lastField < fieldOf w) := by
  have hopc : w.toNat % 256 = (opcodeByte o).toNat := by
    rw [opcodeByte_of_opcodeOfByte ho, toNat_opcOf]
  have hstd : w.toNat / 2 ^ 8 % 8 = (stdOf w).toNat := fieldAt_eq_extractLsb' w 8 3
  have hfield : w.toNat / 2 ^ 16 % 256 = (fieldOf w).toNat := fieldAt_eq_extractLsb' w 16 8
  have hlisted : (opcodeByte o).toNat ∈ legalOpcodes := by cases o <;> decide
  have hreserved : reservedOf w ≠ 0 ↔ ∃ i, ((12 ≤ i ∧ i ≤ 15) ∨ (24 ≤ i ∧ i ≤ 63)) ∧ w.getLsbD i = true := by
    rw [ne_eq, reservedOf_eq_zero_iff, not_not]
  have hstdZero : stdOf w ≠ 0 ↔ (stdOf w).toNat ≠ 0 := (BitVec.toNat_inj (y := 0)).not.symm
  have hfieldZero : fieldOf w ≠ 0 ↔ (fieldOf w).toNat ≠ 0 := (BitVec.toNat_inj (y := 0)).not.symm
  have hlast : lastField < fieldOf w ↔ 0x15 ≤ (fieldOf w).toNat := Iff.rfl
  simp only [IllegalWord, hopc, hstd, hfield, hlisted, not_true_eq_false, false_or, hreserved, hstdZero, hfieldZero,
    hlast, opcodeTakesStd_iff, opcodeTakesMsb_iff, opcodeTakesField_iff, not_or, and_assoc, ne_eq, msbOf]

/-- An illegal word is one whose fields are legal for no standard. -/
theorem not_illegalWord_iff {w : Word} {o : Opcode} (ho : opcodeOfByte (opcOf w) = some o) :
    ¬IllegalWord w ↔ ∃ std, LegalFields w o std := by
  simp only [illegalWord_iff ho, not_or, not_and, ne_eq, not_not]
  constructor
  · rintro ⟨hres, hnoStd, hstd, hmsb, hnoField, hfield⟩
    cases hcode : stdOfCode (stdOf w) with
    | none =>
      have hlarge := (stdOfCode_eq_none_iff _).mp hcode
      exact absurd hlarge (hstd (by_contra fun ht => by simp [hnoStd ht] at hlarge))
    | some std =>
      refine ⟨std, hres, fun ht => Bool.eq_false_of_not_eq_true (hmsb (by simp [ht])),
        fun ht => hnoField (by simp [ht]), fun ht => BitVec.not_lt.mp (hfield ht), hcode, fun ht => ?_⟩
      rw [hnoStd (by simp [ht])] at hcode
      exact (Option.some.inj hcode).symm
  · rintro ⟨std, hres, hmsb, hnoField, hfield, hcode, hnoStd⟩
    refine ⟨hres, fun ht => ?_, fun _ hlarge => ?_, fun ht => ?_, fun ht => ?_, fun ht => ?_⟩
    · rw [← stdBits_of_stdOfCode hcode, hnoStd (Bool.eq_false_of_not_eq_true ht)]
      rfl
    · rw [(stdOfCode_eq_none_iff _).mpr hlarge] at hcode
      cases hcode
    · simp [hmsb (Bool.eq_false_of_not_eq_true ht)]
    · exact hnoField (Bool.eq_false_of_not_eq_true ht)
    · exact BitVec.not_lt.mpr (hfield ht)

/-- The decoder refuses exactly the illegal words (R108, R109). -/
theorem illegalWord_iff_decode_error (w : Word) : IllegalWord w ↔ ∃ e, decode w = .error e := by
  cases ho : opcodeOfByte (opcOf w) with
  | none =>
    have hopc : w.toNat % 256 ∉ legalOpcodes := toNat_opcOf w ▸ (opcodeOfByte_eq_none_iff _).mp ho
    exact iff_of_true (.inl hopc) ⟨.unusedOpcode, by simp only [decode, ho]⟩
  | some o =>
    rw [← not_not (a := IllegalWord w), not_illegalWord_iff ho]
    cases hdecode : decode w with
    | error e =>
      refine iff_of_true (fun ⟨std, hlegal⟩ => ?_) ⟨e, rfl⟩
      cases hdecode.symm.trans ((decode_eq_ok_iff w _).mpr ⟨o, std, ho, hlegal, rfl⟩)
    | ok i =>
      obtain ⟨o', std, ho', hlegal, -⟩ := (decode_eq_ok_iff w i).mp hdecode
      obtain rfl := Option.some.inj (ho.symm.trans ho')
      exact iff_of_false (not_not.mpr ⟨std, hlegal⟩) nofun

/-- Settles O14: the decoder's refusals are R108's items, and the end of a refused word is ILLEGAL. -/
theorem illegalWordsEndIllegal : Obligations.IllegalWordsEndIllegal := by
  refine ⟨illegalWord_iff_decode_error, fun s rest hbusy hillegal => ?_⟩
  obtain ⟨e, hdecode⟩ := (illegalWord_iff_decode_error _).mp hillegal
  exact ⟨fun hevents => (step_of_no_event hevents).trans (endRunning_of_error hbusy hdecode),
    fun hevents => (step_of_commandEnd hevents).trans (endRunning_of_error (s := s.setEvents rest) hbusy hdecode)⟩

/-! A step runs the decoded word. -/

theorem toWord_encode (i : Instr) : BitVec.ofNat 64 ((encode i).toNat % 2 ^ 64) = encode i := by
  rw [Nat.mod_eq_of_lt (encode i).isLt]
  exact toWord_toNat _

/-- The state a placed word leaves (notes/assumptions/16). -/
theorem withFetchWord_encode (s : State) (i : Instr) :
    s.withFetchWord 64 (encode i).toNat =
      { s with cmd := ⟨encode i, true⟩, status := { s.status with busy := true }, events := [] } := by
  rw [State.withFetchWord, acceptWord, toWord_encode]
  rfl

/-- Settles O13: by what is next, and by `decode_encode` for a placed word. -/
theorem stepRunsDecodedCommand : Obligations.StepRunsDecodedCommand := by
  intro s rest op i
  refine ⟨fun hevents hbusy hdecode => (step_of_no_event hevents).trans (endRunning_of_ok hbusy hdecode),
    fun hevents hbusy hdecode =>
      (step_of_commandEnd hevents).trans (endRunning_of_ok (s := s.setEvents rest) hbusy hdecode),
    step_of_host, fun hevents hidle => (step_of_no_event hevents).trans (endRunning_of_idle hidle),
    fun hevents hidle => (step_of_commandEnd hevents).trans (endRunning_of_idle (s := s.setEvents rest) hidle),
    fun hwf => ?_⟩
  rw [withFetchWord_encode]
  exact (step_of_no_event rfl).trans (endRunning_of_ok rfl (decode_encode hwf))

end Sys2Proof.Proofs
end

section
/-! PROOFS. Commands as a whole: their two ends, what they leave unchanged, and what they write (10_state.md R33, R45;
60_exceptions.md R411, R412; 70_reset_and_hazards.md R442): O3, O17, O19 and O20. -/

namespace Sys2Proof.Proofs

open Sys2Proof.Machine

/-- Settles O19: of a command's effects, only a failure ends with ERR = 1. -/
theorem errorEndIsPrecise : Obligations.ErrorEndIsPrecise := by
  intro i s t hexec herr
  rcases exec_cases hexec with hfail | ⟨-, rfl⟩ | ⟨-, -, -, r0, r1, rfl⟩ | ⟨-, -, -, std, f, rfl⟩ | ⟨-, job, -, rfl⟩
  · exact hfail
  all_goals cases herr

/-- The fields a command can write are STATUS, the results, the frame and the buffer. -/
theorem exec_writes {i : Instr} {s t : State} (h : exec i s = .next t) :
    ∃ status res0 res1 frame lo hi frameTag pcmLen pcm, t =
      { s with
        status := status, res0 := res0, res1 := res1, frame := frame, frameLoWritten := lo, frameHiWritten := hi
        frameTag := frameTag, pcmLen := pcmLen, pcm := pcm } := by
  rcases exec_cases h with ⟨e, rfl⟩ | ⟨-, rfl⟩ | ⟨-, -, -, r0, r1, rfl⟩ | ⟨-, -, -, std, f, rfl⟩ | ⟨-, job, -, rfl⟩ <;>
    exact ⟨_, _, _, _, _, _, _, _, _, rfl⟩

/-- Every command ends idle, with LOST as it was and ERR = 1 iff ECODE is not 0 (10_state.md R35). -/
theorem exec_status {i : Instr} {s t : State} (h : exec i s = .next t) :
    t.status.busy = false ∧ t.status.lost = s.status.lost ∧ t.status.err = t.status.ecode.isSome := by
  rcases exec_cases h with ⟨e, rfl⟩ | ⟨-, rfl⟩ | ⟨-, -, -, r0, r1, rfl⟩ | ⟨-, -, -, std, f, rfl⟩ | ⟨-, job, -, rfl⟩ <;>
    exact ⟨rfl, rfl, rfl⟩

/-- Only REC_ENCODE and REC_LOAD write the frame and its flags (10_state.md R46). -/
theorem exec_keeps_frame {i : Instr} {s t : State} (h : exec i s = .next t) (hi : writesFrame i = false) :
    t.frame = s.frame ∧ t.frameTag = s.frameTag ∧ t.frameLoWritten = s.frameLoWritten ∧
      t.frameHiWritten = s.frameHiWritten := by
  rcases exec_cases h with ⟨e, rfl⟩ | ⟨-, rfl⟩ | ⟨-, -, -, r0, r1, rfl⟩ | ⟨-, hwrites, -⟩ | ⟨-, job, -, rfl⟩
  case inr.inr.inr.inl => cases hi.symm.trans hwrites
  all_goals exact ⟨rfl, rfl, rfl, rfl⟩

/-- Only RENDER writes the PCM memory and PCM_LEN (10_state.md R48). -/
theorem exec_keeps_pcm {i : Instr} {s t : State} (h : exec i s = .next t) (hi : i ≠ .render) :
    t.pcmLen = s.pcmLen ∧ t.pcm = s.pcm := by
  rcases exec_cases h with ⟨e, rfl⟩ | ⟨-, rfl⟩ | ⟨-, -, -, r0, r1, rfl⟩ | ⟨-, -, -, std, f, rfl⟩ | ⟨hrender, -⟩
  case inr.inr.inr.inr => exact absurd hrender hi
  all_goals exact ⟨rfl, rfl⟩

/-- Settles O17: a command's next state is the state before it but for the fields of `exec_writes`. -/
theorem commandFrame : Obligations.CommandFrame := by
  intro i s
  obtain ⟨t, hexec⟩ := exec_answers_next i s
  obtain ⟨hbusy, hlost, herr⟩ := exec_status hexec
  have hframe := exec_keeps_frame hexec
  have hpcm := exec_keeps_pcm hexec
  obtain ⟨_, _, _, _, _, _, _, _, _, rfl⟩ := exec_writes hexec
  refine ⟨_, hexec, hbusy, hlost, herr, rfl, rfl, rfl, rfl, rfl, rfl, rfl, rfl, rfl, rfl, rfl, rfl, rfl, rfl, rfl, rfl,
    hframe, fun hi => ?_⟩
  obtain ⟨hlen, hcells⟩ := hpcm hi
  exact ⟨hlen, fun a => congrArg (pcmByte · a) hcells⟩

/-! RES0 and RES1 (10_state.md R45). -/

/-- A rule gives the same writes or the same error whatever RES0 and RES1 hold; NOP's alone leaves them. -/
theorem exec_rule {i : Instr} (hi : i ≠ .nop) (s : State) :
    ∃ r, exec i s = commandEnd s r ∧
      ∀ r0 r1 : Reg, exec i { s with res0 := r0, res1 := r1 } = commandEnd { s with res0 := r0, res1 := r1 } r := by
  cases i with
  | nop => exact absurd rfl hi
  | _ => exact ⟨_, rfl, fun _ _ => rfl⟩

/-- A successful end is its rule's writes, whatever state the command began in. -/
theorem exec_ok_of_other_results {i : Instr} {s t : State} (hi : i ≠ .nop) (h : exec i s = .next t)
    (hok : t.status.err = false) (r0 r1 : Reg) : exec i { s with res0 := r0, res1 := r1 } = .next t := by
  obtain ⟨r, hr, hother⟩ := exec_rule hi s
  rw [hother]
  rcases commandEnd_cases s r with ⟨u, rfl, hend⟩ | ⟨e, rfl, hend⟩
  · cases (hend.symm.trans hr.symm).trans h
    rfl
  · cases (hend.symm.trans hr.symm).trans h
    cases hok

/-- Settles O20: by the effect the command has, and by `exec_ok_of_other_results` for what RES0 and RES1 held before. -/
theorem successfulEnd : Obligations.SuccessfulEnd := by
  intro i s t hexec
  constructor
  · intro hok
    have hother := fun hi => exec_ok_of_other_results hi hexec hok
    rcases exec_cases hexec with ⟨e, rfl⟩ | ⟨rfl, rfl⟩ | ⟨-, -, -, r0, r1, rfl⟩ | ⟨-, -, -, std, f, rfl⟩ |
      ⟨-, job, -, rfl⟩
    · cases hok
    · exact ⟨rfl, fun hi => absurd rfl hi⟩
    all_goals exact ⟨rfl, fun hi => ⟨rfl, rfl, hother hi⟩⟩
  · intro herr
    rcases exec_cases hexec with ⟨e, rfl⟩ | ⟨-, rfl⟩ | ⟨hi, -, -, r0, r1, rfl⟩ | ⟨hi, -, -, std, f, rfl⟩ |
      ⟨rfl, job, -, rfl⟩
    · exact ⟨rfl, rfl⟩
    · exact ⟨rfl, rfl⟩
    · exact herr.elim nofun (absurd · hi)
    · exact herr.elim nofun (absurd · hi)
    · exact herr.elim nofun nofun

/-! Written flags, PRESENT and PCM_LEN (70_reset_and_hazards.md R442). -/

/-- What is written in s is written in t. -/
def StillWritten (s t : State) : Prop :=
  (∀ r, writtenFlag r s = true → writtenFlag r t = true) ∧ (s.frameTag.present = true → t.frameTag.present = true) ∧
    (s.pcmLen ≠ 0 → t.pcmLen ≠ 0)

/-- A state with the same flags. -/
theorem stillWritten_of_same {s t : State} (hflags : ∀ r, writtenFlag r t = writtenFlag r s)
    (htag : t.frameTag = s.frameTag) (hlen : t.pcmLen = s.pcmLen) : StillWritten s t :=
  ⟨fun r h => (hflags r).trans h, fun h => htag ▸ h, fun h => hlen ▸ h⟩

theorem writtenFlag_writeRegister {r : RegName} {s : State} (h : writtenFlag r s = true) (r' : RegName) (v : Word) :
    writtenFlag r (writeRegister r' v s) = true := by
  have hclass : r' ∈ storageRegisters ∨ r' ∈ readOnlyRegisters ∨ r' = .cmd ∨ r' = .status := by cases r' <;> decide
  rcases hclass with hstorage | hreadOnly | rfl | rfl
  · rcases eq_or_ne r r' with rfl | hne
    · exact writtenFlag_writeRegister_same hstorage v s
    · exact (writeRegister_storage_other hstorage hne v s).2.trans h
  · rwa [writeRegister_readOnly hreadOnly]
  · cases r with
    | cmd => rfl
    | _ => exact h
  · cases r <;> exact h

theorem stillWritten_writeRegister (s : State) (r : RegName) (v : Word) : StillWritten s (writeRegister r v s) := by
  refine ⟨fun r' h => writtenFlag_writeRegister h r v, ?_⟩
  cases r <;> exact ⟨id, id⟩

theorem exec_stillWritten {i : Instr} {s t : State} (h : exec i s = .next t) : StillWritten s t := by
  rcases exec_cases h with ⟨e, rfl⟩ | ⟨-, rfl⟩ | ⟨-, -, -, r0, r1, rfl⟩ | ⟨-, -, -, std, f, rfl⟩ | ⟨-, job, hjob, rfl⟩
  · exact stillWritten_of_same (fun r => by cases r <;> rfl) rfl rfl
  · exact stillWritten_of_same (fun r => by cases r <;> rfl) rfl rfl
  · refine ⟨fun r hr => ?_, id, id⟩
    cases r with
    | res0 | res1 => rfl
    | _ => exact hr
  · refine ⟨fun r hr => ?_, fun _ => rfl, id⟩
    cases r with
    | res0 | res1 | frameLo | frameHi => rfl
    | _ => exact hr
  · obtain ⟨hlegal, rfl⟩ := renderJob_legal hjob
    obtain ⟨hpos, hlt, -⟩ := renderCount_bounds hlegal
    refine ⟨fun r hr => ?_, id, fun _ hzero => ?_⟩
    · cases r with
      | res0 | res1 => rfl
      | _ => exact hr
    · have hlen : (toWord (2 * renderCount s.rate.value.toNat s.startSec.value.toNat)).toNat = 0 :=
        congrArg BitVec.toNat hzero
      rw [toNat_toWord hlt] at hlen
      omega

theorem stepEffect_stillWritten {s t : State} (h : StepEffect s t) : StillWritten s t := by
  rcases h with rfl | rfl | ⟨r, v, rfl⟩ | ⟨v, rfl⟩ | ⟨e, rfl⟩ | ⟨i, hexec⟩
  · exact stillWritten_of_same (fun _ => rfl) rfl rfl
  · exact stillWritten_of_same (fun r => by cases r <;> rfl) rfl rfl
  · exact stillWritten_writeRegister s r v
  · exact stillWritten_of_same (fun r => by cases r <;> rfl) rfl rfl
  · exact stillWritten_of_same (fun r => by cases r <;> rfl) rfl rfl
  · exact exec_stillWritten hexec

/-- Settles O3: each effect of a step that is no reset. -/
theorem onlyResetUnwrites : Obligations.OnlyResetUnwrites := by
  intro s t hstep hnoReset
  rcases step_cases hstep with ⟨rest, hevents, -⟩ | ⟨es, heffect⟩
  · exact absurd hevents (hnoReset rest)
  · obtain ⟨hflags, htag, hlen⟩ := stepEffect_stillWritten heffect
    refine ⟨fun r hr => hflags r ?_, htag, hlen⟩
    cases r <;> exact hr

end Sys2Proof.Proofs
end

section
/-! PROOFS. The first two checks of every command (10_state.md R33, R47; 60_exceptions.md R413), by each command's own
equation: O21. -/

namespace Sys2Proof.Proofs

open Sys2Proof.Machine

/-- Every legal FIELD value is a field's (30_encoding.md R104). -/
theorem exists_fieldCode_of_le {f : BitVec 8} (h : f ≤ lastField) : ∃ fld, fieldCode fld = f := by
  have hnamed : ∀ f : BitVec 8, f ≤ lastField → ∃ fld ∈ fieldOfCode f, fieldCode fld = f := by decide
  obtain ⟨fld, -, hcode⟩ := hnamed f h
  exact ⟨fld, hcode⟩

/-- A command that reads an unwritten register ends with UNINIT. -/
theorem exec_of_unwritten {i : Instr} {s : State} (hw : ¬OperandsWritten i s) :
    exec i s = .next (s.failed .uninit) := by
  cases i with
  | nop | recRaw | recField | recValid => simp [OperandsWritten, operandsRead] at hw
  | bcdEnc => rw [exec_bcdEnc, if_neg hw]
  | bcdDec => rw [exec_bcdDec, if_neg hw]
  | bcd5Enc => rw [exec_bcd5Enc, if_neg hw]
  | bcd5Dec => rw [exec_bcd5Dec, if_neg hw]
  | reverse => rw [exec_reverse, if_neg hw]
  | parity => rw [exec_parity, if_neg hw]
  | bits => rw [exec_bits, if_neg hw]
  | setbits msb => rw [exec_setbits, if_neg hw]
  | recEncodeDcf77 => exact (exec_recEncode .dcf77 s).trans (if_neg hw)
  | recEncodeWwvb => exact (exec_recEncode .wwvb s).trans (if_neg hw)
  | recEncodeJjy => exact (exec_recEncode .jjy s).trans (if_neg hw)
  | recEncodeBpc => exact (exec_recEncode .bpc s).trans (if_neg hw)
  | recLoadDcf77 msb | recLoadWwvb msb | recLoadJjy msb =>
    exact (recLoad60_result rfl (by simp [OperandsWritten, operandsRead])).1 hw
  | recLoadBpc msb => rw [exec_recLoadBpc, if_neg hw]
  | recSym => rw [exec_recSym, if_neg hw]
  | schedule => rw [exec_schedule, if_neg hw]
  | envelope => rw [exec_envelope, if_neg hw]
  | sample => rw [exec_sample, if_neg hw]
  | render => rw [exec_render, if_neg hw]

/-- A command that needs a frame ends with NOFRAME without one, its operands written. -/
theorem exec_of_no_frame {i : Instr} {s : State} (hwf : WellFormed i) (hw : OperandsWritten i s)
    (hneeds : needsFrame i = true) (hp : ¬s.frameTag.present = true) : exec i s = .next (s.failed .noframe) := by
  cases i with
  | recRaw msb => rw [exec_recRaw, if_neg hp]
  | recField f =>
    obtain ⟨fld, rfl⟩ := exists_fieldCode_of_le (of_decide_eq_true hwf)
    rw [exec_recField, if_neg hp]
  | recValid => rw [exec_recValid, if_neg hp]
  | recSym => rw [exec_recSym, if_pos hw, if_neg hp]
  | schedule => rw [exec_schedule, if_pos hw, if_neg hp]
  | envelope => rw [exec_envelope, if_pos hw, if_neg hp]
  | render => rw [exec_render, if_pos hw, if_neg hp]
  | _ => cases hneeds

/-- Settles O21: UNINIT first, then NOFRAME. -/
theorem earlyCommandsEndHarmlessly : Obligations.EarlyCommandsEndHarmlessly := fun _ _ hwf =>
  ⟨exec_of_unwritten, fun hw hneeds hp => exec_of_no_frame hwf hw hneeds (by simp [hp])⟩

end Sys2Proof.Proofs
end

section
/-! PROOFS. Reset, dropped writes and PCM reads (70_reset_and_hazards.md R440, R445, R446; 20_memory.md R75, R76): O2,
O7, O11 and O12. -/

namespace Sys2Proof.Proofs

open Sys2Proof.Machine

/-- Settles O2: reset leaves the reset state's registers, and at that idle block a CMD write is accepted. -/
theorem resetAtAnyTime : Obligations.ResetAtAnyTime := fun s rest hevents =>
  ⟨(s.setEvents rest).resetBlock, step_of_reset hevents, resetLeavesStatedValues, fun v =>
    ⟨_, hostAccess_writeReg_idle (r := .cmd) (by decide) v rfl, rfl, rfl⟩⟩

/-- Settles O7: the write's own equation, for STATUS and for every other register. -/
theorem writesWhileBusyAreDropped : Obligations.WritesWhileBusyAreDropped := by
  intro s off r v hbusy hmap
  refine ⟨fun hr => hostAccess_writeReg_busy hmap v hbusy hr, ?_⟩
  rintro rfl
  simp only [hostAccess_writeReg_mapped hmap, bne_self_eq_false, Bool.and_false, Bool.false_eq_true, if_false]
  rfl

/-! PCM reads. -/

/-- `MemRead` stops at the first byte without a value. -/
theorem memRead_of_first_none {rd : Nat → Option Byte} {a n j : Nat} (hj : j < n) (hnone : rd (a + j) = none)
    (hbelow : ∀ k, k < j → (rd (a + k)).isSome = true) : memRead rd a n = .error (a + j) := by
  induction n generalizing a j with
  | zero => omega
  | succ n ih =>
    cases j with
    | zero =>
      rw [Nat.add_zero] at hnone
      simp only [memRead, hnone, Nat.add_zero]
    | succ j =>
      obtain ⟨b, hb⟩ := Option.isSome_iff_exists.mp (hbelow 0 j.succ_pos)
      rw [Nat.add_zero] at hb
      have hshift : ∀ k, a + (k + 1) = a + 1 + k := fun k => by omega
      rw [hshift] at hnone ⊢
      have hrest := ih (Nat.lt_of_succ_lt_succ hj) hnone fun k hk => hshift k ▸ hbelow (k + 1) (by omega)
      simp only [memRead, hb, hrest]

/-- A PCM read of a legal width within the memory faults at the first byte the host sees no value of. -/
theorem hostAccess_readPcm_fault {s : State} {a n j : Nat} {seesNew : BitVec 8} (hn : n = 1 ∨ n = 2 ∨ n = 4 ∨ n = 8)
    (hin : a + n ≤ s.params.pcmBytes) (hj : j < n) (hnone : pcmReadByte s a seesNew (a + j) = none)
    (hbelow : ∀ k, k < j → (pcmReadByte s a seesNew (a + k)).isSome = true) :
    hostAccess (.readPcm a n seesNew) s = .fault (.unwrittenPcm (a + j)) := by
  simp [hostAccess, hostReadPcm, (pcmWidth_iff n).mpr hn, hin, memRead_of_first_none hj hnone hbelow]

/-- Settles O11: the first unwritten byte at or below the given one. -/
theorem unwrittenPcmReadFaults : Obligations.UnwrittenPcmReadFaults := by
  intro s a n i seesNew hn hin hidle hi hnone
  have hex : ∃ j, pcmByte s.pcm (a + j) = none := ⟨i, hnone⟩
  have hfirst : Nat.find hex < n := (Nat.find_min' hex hnone).trans_lt hi
  have hbelow : ∀ k, k < Nat.find hex → (pcmByte s.pcm (a + k)).isSome = true := fun k hk =>
    Option.isSome_iff_ne_none.mpr (Nat.find_min hex hk)
  refine ⟨Nat.find hex, hfirst, Nat.find_spec hex, hbelow, ?_⟩
  refine hostAccess_readPcm_fault hn hin hfirst ?_ fun k hk => ?_
  · rw [pcmReadByte_of_no_render hidle, Nat.find_spec hex]
  · rw [pcmReadByte_of_no_render hidle, hbelow k hk]

theorem runningRenderPcm_of_render {s t : State} (hbusy : s.status.busy = true)
    (hdecode : decode s.cmd.value = .ok .render) (hexec : exec .render s = .next t) : runningRenderPcm s = some t.pcm := by
  have : execRender s = .next t := hexec
  simp only [runningRenderPcm, hbusy, hdecode, this]

/-- While a RENDER runs, byte i of a read is the new or the old one by its own bit of the choice. -/
theorem pcmReadByte_of_render {s t : State} (hbusy : s.status.busy = true) (hdecode : decode s.cmd.value = .ok .render)
    (hexec : exec .render s = .next t) (base i : Nat) (seesNew : BitVec 8) :
    pcmReadByte s base seesNew (base + i) =
      if seesNew.getLsbD i then pcmByte t.pcm (base + i) else pcmByte s.pcm (base + i) := by
  simp only [pcmReadByte, runningRenderPcm_of_render hbusy hdecode hexec, Nat.add_sub_cancel_left]

/-- Settles O12: the bytes seen are the choice's, and the read gives their word or faults at the first unwritten one. -/
theorem pcmReadDuringRender : Obligations.PcmReadDuringRender := by
  intro s t a n seesNew hbusy hdecode hexec hn hin
  simp only [← pcmReadByte_of_render hbusy hdecode hexec]
  refine ⟨fun hseen => ?_, fun j hj hnone hbelow => hostAccess_readPcm_fault hn hin hj hnone hbelow⟩
  obtain ⟨v, hread, hbytes, hlt⟩ := hostAccess_readPcm_seen hn hin hseen
  exact ⟨v, hread, fun i hi => (hbytes i hi).symm, hlt⟩

end Sys2Proof.Proofs
end

section
/-! PROOFS. The words of the read-only registers (10_state.md R31, R35, R46 to R48; 60_exceptions.md R410), bit by bit:
O9. -/

namespace Sys2Proof.Proofs

open Sys2Proof.Machine

theorem getLsbD_bitAt (b : Bool) {p : Nat} (hp : p < 64) (i : Nat) : (bitAt b p).getLsbD i = (decide (i = p) && b) := by
  have hbit : p ≤ i ∧ i - p = 0 ↔ i = p := by omega
  rw [bitAt, getLsbD_placed _ hp, BitVec.getLsbD_ofBool, ← Bool.and_assoc, ← Bool.decide_and, decide_eq_decide.mpr hbit]

/-- STATUS bit by bit (R35). -/
theorem getLsbD_statusWord (st : Status) (i : Nat) :
    (statusWord st).getLsbD i =
      (decide (i = 0) && st.busy || decide (i = 1) && st.err || decide (i = 2) && st.lost ||
        decide (4 ≤ i) && (ecodeBits st.ecode).getLsbD (i - 4)) := by
  simp (disch := decide) only [statusWord, BitVec.getLsbD_or, getLsbD_bitAt, getLsbD_placed]

theorem extractLsb'_statusWord (st : Status) : (statusWord st).extractLsb' 4 4 = ecodeBits st.ecode := by
  refine BitVec.eq_of_getLsbD_eq fun i hi => ?_
  rw [BitVec.getLsbD_extractLsb', getLsbD_statusWord]
  simp [hi, show 4 + i ≠ 1 by omega, show 4 + i ≠ 2 by omega]

/-- FRAME_TAG bit by bit (R47). -/
theorem getLsbD_frameTagWord (t : FrameTag) (i : Nat) :
    (frameTagWord t).getLsbD i = ((stdBits t.std).getLsbD i || decide (i = 7) && t.present) := by
  rw [frameTagWord, BitVec.getLsbD_or, getLsbD_bitAt _ (by decide),
    ← BitVec.shiftLeft_zero ((stdBits t.std).setWidth 64), getLsbD_placed _ (by decide), decide_eq_true (Nat.zero_le i), Bool.true_and, Nat.sub_zero]

theorem extractLsb'_frameTagWord (t : FrameTag) : (frameTagWord t).extractLsb' 0 3 = stdBits t.std := by
  refine BitVec.eq_of_getLsbD_eq fun i hi => ?_
  rw [BitVec.getLsbD_extractLsb', getLsbD_frameTagWord]
  simp [hi, show i ≠ 7 by omega]

/-- A half of FRAME bit by bit (R46). -/
theorem getLsbD_frameHalf (f : Frame) (lo : Nat) {i : Nat} (hi : i < 64) :
    (f.extractLsb' lo 64).getLsbD i = f.getLsbD (lo + i) := by
  rw [BitVec.getLsbD_extractLsb', decide_eq_true hi, Bool.true_and]

/-- Settles O9: STATUS and FRAME_TAG bit by bit, the halves of FRAME, and the registers that read their contents. -/
theorem readOnlyRegisterWords : Obligations.ReadOnlyRegisterWords := by
  intro s
  refine ⟨rfl, ⟨_, rfl, ?_, ?_, ?_, ?_, fun i hi => ?_, (extractLsb'_statusWord s.status).trans ?code⟩,
    ⟨_, rfl, ?_, fun i hi hne => ?_, (extractLsb'_frameTagWord s.frameTag).trans ?std⟩, rfl,
    fun hlo => ⟨_, (flagged_eq_some ..).mpr ⟨hlo, rfl⟩, fun i hi => ?_⟩,
    fun hhi => ⟨_, (flagged_eq_some ..).mpr ⟨hhi, rfl⟩, fun i hi => ?_⟩,
    fun h => (flagged_eq_some ..).mpr ⟨h, rfl⟩, fun h => (flagged_eq_some ..).mpr ⟨h, rfl⟩⟩
  case code =>
    cases s.status.ecode with
    | none => rfl
    | some e => cases e <;> rfl
  case std => cases s.frameTag.std <;> rfl
  · rw [getLsbD_statusWord]
    simp
  · rw [getLsbD_statusWord]
    simp
  · rw [getLsbD_statusWord]
    simp
  · rw [getLsbD_statusWord]
    simp
  · rw [getLsbD_statusWord, BitVec.getLsbD_of_ge _ (i - 4) (by omega)]
    simp [show i ≠ 0 by omega, show i ≠ 1 by omega, show i ≠ 2 by omega]
  · rw [getLsbD_frameTagWord]
    simp
  · simp [getLsbD_frameTagWord, hne, BitVec.getLsbD_of_ge _ i hi]
  · exact (getLsbD_frameHalf s.frame 0 hi).trans (congrArg s.frame.getLsbD (Nat.zero_add i))
  · exact getLsbD_frameHalf s.frame 64 hi

end Sys2Proof.Proofs
end

section
/-! PROOFS. The frames REC_ENCODE makes are valid (41_records_common.md R178, R183): O37. -/

namespace Sys2Proof.Proofs

open Sys2Proof.Machine

/-! The pad bits of a BCD5 field are 0 (40_bitcodec.md R134), so the fixed zero positions within one are. -/

theorem testBit_bcd5_pad (v : Nat) : (bcd5 v).testBit 4 = false ∧ (bcd5 v).testBit 9 = false := by
  have hlow : 32 * (v / 10 % 10) + v % 10 < 2 ^ 9 := by omega
  have hsplit : bcd5 v = 2 ^ 10 * (v / 100) + (32 * (v / 10 % 10) + v % 10) := by rw [bcd5_eq]; omega
  rw [hsplit, Nat.testBit_two_pow_mul_add _ (hlow.trans (by decide)),
    Nat.testBit_two_pow_mul_add _ (hlow.trans (by decide))]
  refine ⟨?_, Nat.testBit_lt_two_pow hlow⟩
  rw [if_pos (by decide), Nat.testBit_eq_decide_div_mod_eq, decide_eq_false_iff_not]
  omega

/-- Bit i of an MSB-first field, by its value. -/
theorem getLsbD_of_msbValue {f : Frame} {p w v i : Nat} (h : msbValue f p w = v) (hi : i < w) :
    f.getLsbD (p + i) = v.testBit (w - 1 - i) := by
  rw [← h, msbValue_eq_reverseLow, testBit_reverseLow, testBit_lsbValue, show w - 1 - (w - 1 - i) = i by omega]
  simp [hi, show w - 1 - i < w by omega]

/-- The fixed zeros of WWVB and JJY (43_wwvb.md R235, 44_jjy.md R264): the pad bits of the minute, the hour and the day
of the year, and the positions outside them. -/
theorem fixedZeros_of_fields {f : Frame} {minute hour doy : Nat} (hminute : msbValue f 1 8 = bcd5 minute)
    (hhour : msbValue f 12 7 = bcd5 hour) (hdoy : msbValue f 22 12 = bcd5 doy)
    (hothers : ∀ i ∈ [0, 9, 19, 39, 49, 59], f.getLsbD i = false) : ∀ i ∈ fixedZeros, f.getLsbD i = false := by
  have h4 := (getLsbD_of_msbValue hminute (i := 3) (by decide)).trans (testBit_bcd5_pad minute).1
  have h14 := (getLsbD_of_msbValue hhour (i := 2) (by decide)).trans (testBit_bcd5_pad hour).1
  have h24 := (getLsbD_of_msbValue hdoy (i := 2) (by decide)).trans (testBit_bcd5_pad doy).2
  have h29 := (getLsbD_of_msbValue hdoy (i := 7) (by decide)).trans (testBit_bcd5_pad doy).1
  have hcover : ∀ i ∈ fixedZeros, i ∈ [4, 14, 24, 29] ∨ i ∈ [0, 9, 19, 39, 49, 59] := by decide
  intro i hi
  rcases hcover i hi with hpad | hother
  · fin_cases hpad
    · exact h4
    · exact h14
    · exact h24
    · exact h29
  · exact hothers i hother

theorem frameValid_encodeWwvb {y mo d h m : Nat} (t1 : Word) (hlegal : DateLegal y mo d h m) :
    FrameValid .wwvb (encodeWwvb y mo d h m t1) := by
  obtain ⟨hminute, hhour, hdoy, -, -, hyear, -⟩ := encodeWwvb_fields t1 hlegal
  refine fixedZeros_of_fields hminute hhour hdoy fun i hi => ?_
  have hcover : ∀ i ∈ [0, 9, 19, 39, 49, 59],
      i = 49 ∨ i ∈ [0, 9, 10, 11, 19, 20, 21, 34, 35, 39, 44, 54] ∨ 59 ≤ i := by decide
  rcases hcover i hi with rfl | houtside
  · exact (getLsbD_of_msbValue hyear (i := 4) (by decide)).trans (testBit_bcd5_pad _).1
  · exact getLsbD_encodeWwvb_of_outside_fields _ _ _ _ _ _ houtside

theorem frameValid_encodeJjy {y mo d h m : Nat} (t1 : Word) (hlegal : DateLegal y mo d h m) :
    FrameValid .jjy (encodeJjy y mo d h m t1) := by
  obtain ⟨hminute, hhour, hdoy, -⟩ := encodeJjy_fields t1 hlegal
  refine ⟨fixedZeros_of_fields hminute hhour hdoy fun i hi => ?_, encodeJjy_parities y mo d h m t1⟩
  have hcover : ∀ i ∈ [0, 9, 19, 39, 49, 59],
      i ∈ [0, 9, 10, 11, 19, 20, 21, 34, 35, 38, 39, 40, 49] ∨ 56 ≤ i := by decide
  exact getLsbD_encodeJjy_of_outside_fields (.inl (hcover i hi))

theorem frameValid_encodeDcf77 {y mo d h m : Nat} (t1 : Word) (hlegal : DateLegal y mo d h m) :
    FrameValid .dcf77 (encodeDcf77 y mo d h m t1) := by
  obtain ⟨hlow, -, hstart, -, hp1, -, hp2, -, -, -, -, hp3, hhigh⟩ := encodeDcf77_layout t1 hlegal
  exact ⟨hlow 0 (by decide), hhigh 59 (by decide), hstart, hp1, hp2, hp3⟩

/-- The parity bit below another bit in a BPC symbol (45_bpc.md R292, R293). -/
theorem getLsbD_of_symField_pair {f : Frame} {s a : Nat} {b : Bool} (h : symField f s 1 = 2 * a + b.toNat) :
    f.getLsbD (2 * s) = b := by
  rw [symField_one, symValue] at h
  cases hbit : f.getLsbD (2 * s) <;> cases b <;> simp only [hbit, Bool.toNat_false, Bool.toNat_true] at h ⊢ <;> omega

theorem frameValid_encodeBpc {y mo d h m : Nat} (t1 : Word) (hlegal : DateLegal y mo d h m) :
    FrameValid .bpc (encodeBpc y mo d h m t1) := by
  intro k hk
  obtain ⟨hsync, -, -, -, hp3, -, -, -, hp4⟩ := encodeBpc_subframeHolds t1 hlegal hk
  have hbit3 := getLsbD_of_symField_pair hp3
  have hbit4 := getLsbD_of_symField_pair hp4
  rw [Nat.mul_add, ← Nat.mul_assoc] at hbit3 hbit4
  exact ⟨symField_one _ _ ▸ hsync, hbit3, hbit4⟩

theorem frameValid_encodeRecord (std : Std) {y mo d h m : Nat} (t1 : Word) (hlegal : DateLegal y mo d h m) :
    FrameValid std (encodeRecord std y mo d h m t1) := by
  cases std with
  | dcf77 => exact frameValid_encodeDcf77 t1 hlegal
  | wwvb => exact frameValid_encodeWwvb t1 hlegal
  | jjy => exact frameValid_encodeJjy t1 hlegal
  | bpc => exact frameValid_encodeBpc t1 hlegal

theorem exec_recValid_recorded {std : Std} {f : Frame} (h : FrameValid std f) (s : State) :
    exec .recValid (s.recorded std f) = .next ((s.recorded std f).succeeded 1 0) :=
  ((recValidResult (s.recorded std f)).2 rfl).1 h

/-- Settles O37: the frame of a legal time input is valid, in each of the four standards. -/
theorem encodedFramesAreValid : Obligations.EncodedFramesAreValid := fun std s hw hlegal =>
  ⟨_, exec_recEncode_legal hw hlegal, rfl,
    exec_recValid_recorded (frameValid_encodeRecord std s.tin1.value hlegal.2.1) s⟩

end Sys2Proof.Proofs
end

section
/-! PROOFS. The bounds of a schedule (46_envelope.md R320, R321, R324, R325), and RENDER by ENVELOPE and SAMPLE
(48_render.md R384): O46 and O56. -/

namespace Sys2Proof.Proofs

open Sys2Proof.Machine

theorem slotCode_le (c : SlotClass) : slotCode c ≤ 9 := by cases c <;> decide

/-- No prefix is longer than a second, the parameters' included. -/
theorem prefixMs_le {p : Params} (h : p.wf = true) (std : Std) (c : SlotClass) : prefixMs p std c ≤ 1000 := by
  simp only [Params.wf, Bool.and_eq_true, decide_eq_true_eq] at h
  cases std <;> cases c <;> simp only [prefixMs, dcf77Ms, wwvbMs, jjyPrefixMs, bpcPrefixMs] <;> omega

theorem prefixSamples_le {p : Params} (h : p.wf = true) (std : Std) (rate : Nat) (c : SlotClass) :
    prefixSamples p std rate c ≤ rate :=
  Nat.div_le_of_le_mul (by rw [Nat.mul_comm]; exact Nat.mul_le_mul_right rate (prefixMs_le h std c))

theorem toNat_toWord_le (n : Nat) : (toWord n).toNat ≤ n := (BitVec.toNat_ofNat ..).trans_le (Nat.mod_le ..)

/-- What a SCHEDULE without an error wrote. -/
theorem schedule_of_no_error {s t : State} (hexec : exec .schedule s = .next t) (hok : t.status.err = false) :
    ∃ c,
      t = s.succeeded (toWord (prefixSamples s.params s.frameTag.std s.rate.value.toNat c)) (toWord (slotCode c)) := by
  rw [exec_schedule] at hexec
  split_ifs at hexec <;> obtain rfl := Host.Outcome.next.inj hexec
  case neg => exact ⟨_, rfl⟩
  all_goals cases hok

/-- Settles O46: the prefix is a part of RATE, and every class has a code of one digit. -/
theorem prefixFitsItsSecond : Obligations.PrefixFitsItsSecond := by
  intro s t hwf hexec hok
  obtain ⟨c, rfl⟩ := schedule_of_no_error hexec hok
  exact ⟨(toNat_toWord_le _).trans (prefixSamples_le hwf ..), (toNat_toWord_le _).trans (slotCode_le c)⟩

/-! The amplitudes ENVELOPE gives are amplitudes SAMPLE takes (R330, 47_synth.md R357). -/

/-- 1.0 - d is in [0, 1] where d is. -/
theorem inUnitInterval_one_sub {d : Word} (h : inUnitInterval d = true) : inUnitInterval (f64Sub f64One d) = true := by
  obtain ⟨hfin, h0, h1⟩ := (inUnitInterval_iff d).mp h
  have hone : f64Finite f64One = true := by decide
  rcases eq_or_ne (f64Rat f64One) (f64Rat d) with heq | hne
  · rw [f64Sub_of_eq hone hfin heq, if_neg fun hzero => absurd hzero.1 (by decide)]
    decide
  · have hround := roundsOnce_f64Sub hone hfin hne
    rw [f64Rat_one, decide_eq_false (not_lt.mpr h1)] at hround
    obtain ⟨hsubfin, hle⟩ := hround.bounded hone (by rw [f64Rat_one, abs_one, abs_of_nonneg] <;> linarith)
    rw [f64Rat_one, abs_one] at hle
    refine (inUnitInterval_iff _).mpr ⟨hsubfin, ?_, (le_abs_self _).trans hle⟩
    rw [f64Rat_of_finite hsubfin, hround.sign]
    simp only [f64Sign, Bool.false_eq_true, if_false, one_mul]
    positivity

theorem inUnitInterval_envelopeAmplitude (p : Params) (std : Std) (f : Frame) (rate : Nat) {depth : Word} (s k : Nat)
    (h : inUnitInterval depth = true) : inUnitInterval (envelopeAmplitude p std f rate depth s k) = true := by
  rw [envelopeAmplitude]
  split_ifs
  · decide
  · decide
  · decide
  · exact inUnitInterval_one_sub h

theorem exec_envelope_legal {s : State} (hw : OperandsWritten .envelope s) (hp : s.frameTag.present = true)
    (hrate : 1 ≤ s.rate.value.toNat ∧ s.rate.value.toNat < 2 ^ 32) (hdepth : inUnitInterval s.depth.value = true)
    (hsec : s.opa.value.toNat ≤ 59) (hk : s.opb.value.toNat < s.rate.value.toNat)
    (hgood : ¬FrameUndecodable s.frameTag.std s.frame) :
    exec .envelope s =
      .next (s.succeeded
        (envelopeAmplitude s.params s.frameTag.std s.frame s.rate.value.toNat s.depth.value s.opa.value.toNat
          s.opb.value.toNat) 0) := by
  rw [exec_envelope, if_pos hw, if_pos hp, if_pos ⟨(rateLegal_iff _).mpr hrate, hdepth⟩, if_pos ⟨hsec, hk⟩,
    if_neg hgood, amplitude_eq_envelopeAmplitude _ _ _ _ _ _ hsec]

/-! Sample j by the two commands (R384). -/

/-- The low 16 bits of a sign-extended sample are the sample's. -/
theorem extractLsb'_ofInt (v : Int) {lo : Nat} (hlo : lo + 8 ≤ 16) :
    (BitVec.ofInt 64 v).extractLsb' lo 8 = (BitVec.ofInt 16 v).extractLsb' lo 8 := by
  have hlow : (BitVec.ofInt 64 v).setWidth 16 = BitVec.ofInt 16 v := by
    refine BitVec.eq_of_toNat_eq ?_
    rw [BitVec.toNat_setWidth, BitVec.toNat_ofInt, BitVec.toNat_ofInt]
    omega
  refine BitVec.eq_of_getLsbD_eq fun i hi => ?_
  rw [BitVec.getLsbD_extractLsb', BitVec.getLsbD_extractLsb', ← hlow, BitVec.getLsbD_setWidth,
    decide_eq_true (show lo + i < 16 by omega), Bool.true_and]

theorem runningIndex_lt (p : Params) {rate startSec j : Nat} (hrate : rate < 2 ^ 32)
    (hj : j < rate * (60 - startSec)) : runningIndex p rate startSec j < 2 ^ 53 := by
  have hpos : 0 < rate := Nat.pos_of_mul_pos_right (Nat.zero_lt_of_lt hj)
  rw [runningIndex]
  split
  · have hsec : (startSec + j / rate) * rate ≤ 59 * rate := Nat.mul_le_mul_right rate (second_le hj)
    have := Nat.mod_lt j hpos
    omega
  · have : rate * (60 - startSec) ≤ rate * 60 := Nat.mul_le_mul_left rate (Nat.sub_le ..)
    omega

/-- What a RENDER without an error found and wrote. -/
theorem render_of_no_error {s t : State} (hexec : exec .render s = .next t) (hok : t.status.err = false) :
    OperandsWritten .render s ∧ s.frameTag.present = true ∧ RenderConfigLegal s ∧
      ¬FrameUndecodable s.frameTag.std s.frame ∧ t = rendered s (renderJobOf s) := by
  rw [exec_render] at hexec
  split_ifs at hexec with hw hp hlegal hbad <;> obtain rfl := Host.Outcome.next.inj hexec
  case neg => exact ⟨hw, hp, hlegal, hbad, rfl⟩
  all_goals cases hok

/-- Settles O56: the second, the sample within it and the running index are legal operands, the amplitude ENVELOPE gives
is one SAMPLE takes, and RES0's low 16 bits are the buffer's sample. -/
theorem renderEqualsEnvelopeThenSample : Obligations.RenderEqualsEnvelopeThenSample := by
  intro s t j hexec hok hfreq hj
  obtain ⟨hw, hp, ⟨hpos, hrate, -, hshape, hdepth, hstart, -⟩, hgood, rfl⟩ := render_of_no_error hexec hok
  have hrate : s.rate.value.toNat < 2 ^ 32 := Nat.lt_of_le_sub_one (by decide) hrate
  simp only [OperandsWritten, operandsRead, List.forall_mem_cons] at hw
  obtain ⟨hwRate, hwFreq, hwShape, hwDepth, -, -⟩ := hw
  have hsec := second_le hj
  have hk : j % s.rate.value.toNat < s.rate.value.toNat := Nat.mod_lt j hpos
  have hn := runningIndex_lt s.params hrate hj
  have hsecWord := toNat_toWord (hsec.trans_lt (by decide))
  have hkWord := toNat_toWord ((hk.trans hrate).trans (by decide))
  have hnWord := toNat_toWord (hn.trans (by decide))
  have hamplitude := inUnitInterval_envelopeAmplitude s.params s.frameTag.std s.frame s.rate.value.toNat
    (s.startSec.value.toNat + j / s.rate.value.toNat) (j % s.rate.value.toNat) hdepth
  obtain ⟨hlow, hhigh⟩ := pcmByte_renderPcm_sample s.params (renderJobOf s) s.pcm hj
  rw [renderSample_eq_bufferSample s hj, bufferSample, ← extractLsb'_ofInt _ (by decide)] at hlow hhigh
  rw [toWord] at hsecWord hkWord hnWord
  refine ⟨_, _, exec_envelope_legal ?_ hp ⟨hpos, hrate⟩ hdepth ?_ ?_ hgood, rfl,
    exec_sample_legal ?_ hpos hrate hfreq hshape ?_ ?_, rfl, ?_, ?_⟩
  · simp [OperandsWritten, operandsRead, hwRate, hwDepth]
  · exact hsecWord.trans_le hsec
  · exact hkWord.trans_lt hk
  · simp [OperandsWritten, operandsRead, hwRate, hwFreq, hwShape, State.succeeded]
  · exact hnWord.trans_lt hn
  · simpa only [State.succeeded, hsecWord, hkWord] using hamplitude
  · simpa only [rendered_pcm, State.succeeded, hsecWord, hkWord, hnWord, shapeSample_eq_sampleValue] using hlow
  · simpa only [rendered_pcm, State.succeeded, hsecWord, hkWord, hnWord, shapeSample_eq_sampleValue] using hhigh

end Sys2Proof.Proofs
end
